-- ==== Sys2Proof/Word.lean ====
section
/-! DEFINITION. The two bit-vector widths of the engine: bytes and 32-bit words (00_scope R11). -/

namespace Sys2Proof

/-- A byte, 8 bits (R11). -/
abbrev Byte := BitVec 8

/-- A word, 32 bits unless a width is written (R11). -/
abbrev Word := BitVec 32

/-- A byte string: `s[0]` is its first element (R11). -/
abbrev Bytes := List Byte

end Sys2Proof
end

