-- ==== Sys2Proof/Syntax.lean ====
section
/-! DEFINITION. The instruction set: the eleven commands of 30_encoding R72, one constructor per row of
spec/opcode_table.json. Every operand is implicit (R70, R73), so no constructor has an argument. -/

namespace Sys2Proof

/-- A command of the engine (R72). -/
inductive Instr where
  /-- `DERIVE`, word 0x00000001: `KEY <- PBKDF2-HMAC-SHA1(PW)`, copied to `OUT` (R121). -/
  | derive
  /-- `ENCRYPT`, word 0x00000002: `OUT <- IV ‖ CBC(pad(IN))` under a drawn `IV` (R184). -/
  | encrypt
  /-- `DECRYPT`, word 0x00000003: `OUT <- unpad(CBC^-1(IN))` (R186). -/
  | decrypt
  /-- `LDKEY`, word 0x00000004: `KEY <- IN[0..32)` (R152). -/
  | ldkey
  /-- `CLEAR`, word 0x00000005: zero all state, back to IDLE (R190). -/
  | clear
  /-- `SHA1`, word 0x00000010: `OUT <- SHA-1(IN)` (R101). -/
  | sha1
  /-- `HMAC`, word 0x00000011: `OUT <- HMAC-SHA1(PW, IN)` (R114). -/
  | hmac
  /-- `AESENCB`, word 0x00000020: `OUT <- Cipher(KEY, IN)`, one block (R153). -/
  | aesencb
  /-- `AESDECB`, word 0x00000021: `OUT <- InvCipher(KEY, IN)`, one block (R154). -/
  | aesdecb
  /-- `PAD`, word 0x00000030: `OUT <- IN ‖ padding` (R164). -/
  | pad
  /-- `UNPAD`, word 0x00000031: `OUT <- IN` with valid padding removed (R165). -/
  | unpad
deriving DecidableEq, Repr

end Sys2Proof
end

