-- ==== Sys2Proof/Decode.lean ====
section
/-! DEFINITION. Format C (30_encoding R70): the decoder, total on every 32-bit word and rejecting by name, and after it
the encoder, written from the opcode map of R72. -/

namespace Sys2Proof

/-- Why a word is not a command (R74). -/
inductive Reject where
  /-- `RSV`, bits [31:8], is not zero. -/
  | reservedBits
  /-- `RSV` is zero and `OP` is none of the eleven values of R72. -/
  | unassignedOp
deriving DecidableEq, Repr

/-- `OP`, bits [7:0] (R70). -/
def opField (w : Word) : BitVec 8 := w.extractLsb' 0 8

/-- `RSV`, bits [31:8] (R70). -/
def rsvField (w : Word) : BitVec 24 := w.extractLsb' 8 24

/-- The opcode map of R72, read from `OP`. -/
def decodeOp (op : Nat) : Except Reject Instr :=
  match op with
  | 0x01 => .ok .derive
  | 0x02 => .ok .encrypt
  | 0x03 => .ok .decrypt
  | 0x04 => .ok .ldkey
  | 0x05 => .ok .clear
  | 0x10 => .ok .sha1
  | 0x11 => .ok .hmac
  | 0x20 => .ok .aesencb
  | 0x21 => .ok .aesdecb
  | 0x30 => .ok .pad
  | 0x31 => .ok .unpad
  | _ => .error .unassignedOp

/-- The decoder: the whole word is compared, so a legal `OP` under a non-zero `RSV` is illegal (R70, R74). -/
def decode (w : Word) : Except Reject Instr :=
  if rsvField w ≠ 0 then .error .reservedBits else decodeOp (opField w).toNat

/-- The encoder: the words of R72. -/
def encode : Instr → Word
  | .derive => 0x00000001
  | .encrypt => 0x00000002
  | .decrypt => 0x00000003
  | .ldkey => 0x00000004
  | .clear => 0x00000005
  | .sha1 => 0x00000010
  | .hmac => 0x00000011
  | .aesencb => 0x00000020
  | .aesdecb => 0x00000021
  | .pad => 0x00000030
  | .unpad => 0x00000031

/-- The command word that the opcode table writes as the number `w` of `nbits` bits: the bits above `nbits` are zero, and
an instruction is 32 bits long, always (R70). There is no byte order to lay out (20_memory R56). -/
def tableWord (nbits w : Nat) : Word := BitVec.ofNat 32 (w % 2 ^ nbits)

/-- What the decoder reads from a word numbered as spec/opcode_table.json numbers it. -/
def decodeTableWord (nbits w : Nat) : Option Instr :=
  match decode (tableWord nbits w) with
  | .ok i => some i
  | .error _ => none

end Sys2Proof
end

