-- ==== Sys2Proof/Machine/Bytes.lean ====
section
/-! DEFINITION. Byte strings and words: the notation of 00_scope R11 to R13 that the cores' functions are written in. -/

namespace Sys2Proof.Machine

/-- `BE32(b0, b1, b2, b3)`, the big-endian word of four bytes (R13). A byte beyond the string's end counts as zero; no
rule applies it to fewer than four (log 10). -/
def beWord (b : Bytes) : Word := b.getD 0 0 ++ b.getD 1 0 ++ b.getD 2 0 ++ b.getD 3 0

/-- `be32(w)`, the four bytes of a word, most significant first (R13). -/
def be32 (w : Word) : Bytes :=
  [w.extractLsb' 24 8, w.extractLsb' 16 8, w.extractLsb' 8 8, w.extractLsb' 0 8]

/-- `be64(n)`, the eight bytes of `n < 2^64`, most significant first (R13). -/
def be64 (n : Nat) : Bytes := (List.range 8).map fun i => BitVec.ofNat 8 (n / 256 ^ (7 - i))

/-- `ROTL^n(x)`, rotate left by `n`, `0 < n < 32` (R12). -/
def rotl (n : Nat) (x : Word) : Word := (x <<< n) ||| (x >>> (32 - n))

/-- `XOR` on two byte strings of equal length, bytewise (R12). -/
def xorBytes (a b : Bytes) : Bytes := List.zipWith (· ^^^ ·) a b

/-- The pieces `s[nk .. nk+n)` for `k = 0 .. len(s) div n - 1`, in order: the message blocks of 40_sha1 R98 (`n = 64`), the
words of R93 and 42_aes R137 (`n = 4`), the cipher blocks of 43_padding_cbc R167 (`n = 16`). -/
def pieces (n : Nat) (s : Bytes) : List Bytes :=
  (List.range (s.length / n)).map fun k => (s.drop (n * k)).take n

/-- The first `n` bytes of a string as a register of `n` bytes; zero beyond the string's end (log 10). -/
def toReg (n : Nat) (s : Bytes) : Vector Byte n :=
  ⟨((List.range n).map fun i => s.getD i 0).toArray, by simp⟩

end Sys2Proof.Machine
end

