-- ==== Sys2Proof/Machine/AesCore.lean ====
section
/-! DEFINITION. The AES-256 core (42_aes R130 to R147): field arithmetic, the two tables, the key schedule, the round
transformations, `Cipher` and `InvCipher`. The state `S` is kept as the 16-byte string `s` with `s[r + 4c] = S[r,c]`
(R141), so loading and unloading a block are the identity. -/

namespace Sys2Proof.Machine

/-! ### Field arithmetic in GF(2^8) (R131) -/

/-- Multiplication by `x` modulo `x^8 + x^4 + x^3 + x + 1` (R131). -/
def xtime (a : Byte) : Byte := if a.getLsbD 7 then (a <<< 1) ^^^ 0x1B else a <<< 1

/-- `xtime` applied `k` times (R131). -/
def xtimes : Nat → Byte → Byte
  | 0, a => a
  | k + 1, a => xtimes k (xtime a)

/-- `a • b`: the XOR over the set bits `k` of `b` of `xtime^k(a)` (R131). -/
def gmul (a b : Byte) : Byte :=
  (List.range 8).foldl (fun acc k => if b.getLsbD k then acc ^^^ xtimes k a else acc) 0

/-- `inv(a)` as `a^254`, which is the inverse of a non-zero `a` and 0 for 0 (R131; DEDUCED, log 12, checked in
Laws/Aes.lean). Used by the algebraic definition of the S-box only. -/
def gfInv (a : Byte) : Byte :=
  let a2 := gmul a a
  let a4 := gmul a2 a2
  let a8 := gmul a4 a4
  let a16 := gmul a8 a8
  let a32 := gmul a16 a16
  let a64 := gmul a32 a32
  gmul (gmul a64 a64) (gmul a64 (gmul a32 (gmul a16 (gmul a8 (gmul a4 a2)))))

/-! ### The S-box and its inverse (R132, R133) -/

/-- Bit `i` of the S-box of `a`, from `b = inv(a)`: `b[i] XOR b[(i+4) mod 8] XOR b[(i+5) mod 8] XOR b[(i+6) mod 8] XOR
b[(i+7) mod 8] XOR c[i]`, `c` = 0x63 (R132). -/
def sboxBit (b : Byte) (i : Nat) : Bool :=
  b.getLsbD i ^^ b.getLsbD ((i + 4) % 8) ^^ b.getLsbD ((i + 5) % 8) ^^ b.getLsbD ((i + 6) % 8) ^^
    b.getLsbD ((i + 7) % 8) ^^ (0x63 : Byte).getLsbD i

/-- The algebraic definition of the S-box, which governs the table (R132); Laws/Aes.lean shows that they agree. -/
def sboxAlgebraic (a : Byte) : Byte :=
  let b := gfInv a
  (List.range 8).foldl (fun acc i => if sboxBit b i then acc ||| (1#8 <<< i) else acc) 0

/-- The S-box table, rows 0_ to 7_ (R132). -/
def sboxRowsLow : List Bytes :=
  [[0x63, 0x7c, 0x77, 0x7b, 0xf2, 0x6b, 0x6f, 0xc5, 0x30, 0x01, 0x67, 0x2b, 0xfe, 0xd7, 0xab, 0x76],
   [0xca, 0x82, 0xc9, 0x7d, 0xfa, 0x59, 0x47, 0xf0, 0xad, 0xd4, 0xa2, 0xaf, 0x9c, 0xa4, 0x72, 0xc0],
   [0xb7, 0xfd, 0x93, 0x26, 0x36, 0x3f, 0xf7, 0xcc, 0x34, 0xa5, 0xe5, 0xf1, 0x71, 0xd8, 0x31, 0x15],
   [0x04, 0xc7, 0x23, 0xc3, 0x18, 0x96, 0x05, 0x9a, 0x07, 0x12, 0x80, 0xe2, 0xeb, 0x27, 0xb2, 0x75],
   [0x09, 0x83, 0x2c, 0x1a, 0x1b, 0x6e, 0x5a, 0xa0, 0x52, 0x3b, 0xd6, 0xb3, 0x29, 0xe3, 0x2f, 0x84],
   [0x53, 0xd1, 0x00, 0xed, 0x20, 0xfc, 0xb1, 0x5b, 0x6a, 0xcb, 0xbe, 0x39, 0x4a, 0x4c, 0x58, 0xcf],
   [0xd0, 0xef, 0xaa, 0xfb, 0x43, 0x4d, 0x33, 0x85, 0x45, 0xf9, 0x02, 0x7f, 0x50, 0x3c, 0x9f, 0xa8],
   [0x51, 0xa3, 0x40, 0x8f, 0x92, 0x9d, 0x38, 0xf5, 0xbc, 0xb6, 0xda, 0x21, 0x10, 0xff, 0xf3, 0xd2]]

/-- The S-box table, rows 8_ to f_ (R132). -/
def sboxRowsHigh : List Bytes :=
  [[0xcd, 0x0c, 0x13, 0xec, 0x5f, 0x97, 0x44, 0x17, 0xc4, 0xa7, 0x7e, 0x3d, 0x64, 0x5d, 0x19, 0x73],
   [0x60, 0x81, 0x4f, 0xdc, 0x22, 0x2a, 0x90, 0x88, 0x46, 0xee, 0xb8, 0x14, 0xde, 0x5e, 0x0b, 0xdb],
   [0xe0, 0x32, 0x3a, 0x0a, 0x49, 0x06, 0x24, 0x5c, 0xc2, 0xd3, 0xac, 0x62, 0x91, 0x95, 0xe4, 0x79],
   [0xe7, 0xc8, 0x37, 0x6d, 0x8d, 0xd5, 0x4e, 0xa9, 0x6c, 0x56, 0xf4, 0xea, 0x65, 0x7a, 0xae, 0x08],
   [0xba, 0x78, 0x25, 0x2e, 0x1c, 0xa6, 0xb4, 0xc6, 0xe8, 0xdd, 0x74, 0x1f, 0x4b, 0xbd, 0x8b, 0x8a],
   [0x70, 0x3e, 0xb5, 0x66, 0x48, 0x03, 0xf6, 0x0e, 0x61, 0x35, 0x57, 0xb9, 0x86, 0xc1, 0x1d, 0x9e],
   [0xe1, 0xf8, 0x98, 0x11, 0x69, 0xd9, 0x8e, 0x94, 0x9b, 0x1e, 0x87, 0xe9, 0xce, 0x55, 0x28, 0xdf],
   [0x8c, 0xa1, 0x89, 0x0d, 0xbf, 0xe6, 0x42, 0x68, 0x41, 0x99, 0x2d, 0x0f, 0xb0, 0x54, 0xbb, 0x16]]

/-- The inverse S-box table, rows 0_ to 7_ (R133). -/
def invSboxRowsLow : List Bytes :=
  [[0x52, 0x09, 0x6a, 0xd5, 0x30, 0x36, 0xa5, 0x38, 0xbf, 0x40, 0xa3, 0x9e, 0x81, 0xf3, 0xd7, 0xfb],
   [0x7c, 0xe3, 0x39, 0x82, 0x9b, 0x2f, 0xff, 0x87, 0x34, 0x8e, 0x43, 0x44, 0xc4, 0xde, 0xe9, 0xcb],
   [0x54, 0x7b, 0x94, 0x32, 0xa6, 0xc2, 0x23, 0x3d, 0xee, 0x4c, 0x95, 0x0b, 0x42, 0xfa, 0xc3, 0x4e],
   [0x08, 0x2e, 0xa1, 0x66, 0x28, 0xd9, 0x24, 0xb2, 0x76, 0x5b, 0xa2, 0x49, 0x6d, 0x8b, 0xd1, 0x25],
   [0x72, 0xf8, 0xf6, 0x64, 0x86, 0x68, 0x98, 0x16, 0xd4, 0xa4, 0x5c, 0xcc, 0x5d, 0x65, 0xb6, 0x92],
   [0x6c, 0x70, 0x48, 0x50, 0xfd, 0xed, 0xb9, 0xda, 0x5e, 0x15, 0x46, 0x57, 0xa7, 0x8d, 0x9d, 0x84],
   [0x90, 0xd8, 0xab, 0x00, 0x8c, 0xbc, 0xd3, 0x0a, 0xf7, 0xe4, 0x58, 0x05, 0xb8, 0xb3, 0x45, 0x06],
   [0xd0, 0x2c, 0x1e, 0x8f, 0xca, 0x3f, 0x0f, 0x02, 0xc1, 0xaf, 0xbd, 0x03, 0x01, 0x13, 0x8a, 0x6b]]

/-- The inverse S-box table, rows 8_ to f_ (R133). -/
def invSboxRowsHigh : List Bytes :=
  [[0x3a, 0x91, 0x11, 0x41, 0x4f, 0x67, 0xdc, 0xea, 0x97, 0xf2, 0xcf, 0xce, 0xf0, 0xb4, 0xe6, 0x73],
   [0x96, 0xac, 0x74, 0x22, 0xe7, 0xad, 0x35, 0x85, 0xe2, 0xf9, 0x37, 0xe8, 0x1c, 0x75, 0xdf, 0x6e],
   [0x47, 0xf1, 0x1a, 0x71, 0x1d, 0x29, 0xc5, 0x89, 0x6f, 0xb7, 0x62, 0x0e, 0xaa, 0x18, 0xbe, 0x1b],
   [0xfc, 0x56, 0x3e, 0x4b, 0xc6, 0xd2, 0x79, 0x20, 0x9a, 0xdb, 0xc0, 0xfe, 0x78, 0xcd, 0x5a, 0xf4],
   [0x1f, 0xdd, 0xa8, 0x33, 0x88, 0x07, 0xc7, 0x31, 0xb1, 0x12, 0x10, 0x59, 0x27, 0x80, 0xec, 0x5f],
   [0x60, 0x51, 0x7f, 0xa9, 0x19, 0xb5, 0x4a, 0x0d, 0x2d, 0xe5, 0x7a, 0x9f, 0x93, 0xc9, 0x9c, 0xef],
   [0xa0, 0xe0, 0x3b, 0x4d, 0xae, 0x2a, 0xf5, 0xb0, 0xc8, 0xeb, 0xbb, 0x3c, 0x83, 0x53, 0x99, 0x61],
   [0x17, 0x2b, 0x04, 0x7e, 0xba, 0x77, 0xd6, 0x26, 0xe1, 0x69, 0x14, 0x63, 0x55, 0x21, 0x0c, 0x7d]]

/-- A table's entry: row the high nibble of the input, column the low nibble (R132). -/
def tableAt (rows : List Bytes) (a : Byte) : Byte := (rows.getD (a.toNat / 16) []).getD (a.toNat % 16) 0

/-- `SBOX[a]` (R132). -/
def sbox (a : Byte) : Byte := tableAt (sboxRowsLow ++ sboxRowsHigh) a

/-- `INVSBOX[a]` (R133). -/
def invSbox (a : Byte) : Byte := tableAt (invSboxRowsLow ++ invSboxRowsHigh) a

/-! ### Key schedule (R134 to R137) -/

/-- `SubWord([a0,a1,a2,a3])` (R134). -/
def subWord (w : Word) : Word := beWord ((be32 w).map sbox)

/-- `RotWord([a0,a1,a2,a3]) = [a1,a2,a3,a0]`, that is `ROTL^8` (R134). -/
def rotWord (w : Word) : Word := rotl 8 w

/-- `Rcon[j] = [x^(j-1), 0, 0, 0]`, `j` = 1..7 (R135). -/
def rcon (j : Nat) : Word := beWord [xtimes (j - 1) 0x01, 0x00, 0x00, 0x00]

/-- What `RK[i]` takes of `RK[i-1]` (R137); the case `i mod 8 = 4` is the extra step of 256-bit keys. -/
def keyTemp (i : Nat) (prev : Word) : Word :=
  if i % 8 = 0 then subWord (rotWord prev) ^^^ rcon (i / 8)
  else if i % 8 = 4 then subWord prev
  else prev

/-- One word more of the schedule: `RK[i]` with `i = k + 8` (R137). -/
def keyStep (rk : List Word) (k : Nat) : List Word :=
  rk ++ [rk.getD k 0 ^^^ keyTemp (k + 8) (rk.getD (k + 7) 0)]

/-- `KeyExpansion(key)`: 32 bytes to `RK[0..59]` (R137). -/
def keyExpansion (key : Bytes) : List Word := (List.range 52).foldl keyStep ((pieces 4 key).map beWord)

/-! ### Round transformations (R138 to R142) -/

/-- The round key `k` as 16 bytes: `be32(RK[4k]) ‖ ... ‖ be32(RK[4k+3])` (R138). -/
def roundKey (rk : List Word) (k : Nat) : Bytes := (List.range 4).flatMap fun c => be32 (rk.getD (4 * k + c) 0)

/-- `AddRoundKey(S, RK, k)` (R138). -/
def addRoundKey (rk : List Word) (k : Nat) (s : Bytes) : Bytes := xorBytes s (roundKey rk k)

/-- `SubBytes(S)` (R139). -/
def subBytes (s : Bytes) : Bytes := s.map sbox

/-- `InvSubBytes(S)` (R139). -/
def invSubBytes (s : Bytes) : Bytes := s.map invSbox

/-- `S[r,c]` of the state string (R141). -/
def stateAt (s : Bytes) (r c : Nat) : Byte := s.getD (r + 4 * c) 0

/-- The state string whose element `S[r,c]` is `f r c` (R141). -/
def stateOf (f : Nat → Nat → Byte) : Bytes := (List.range 16).map fun k => f (k % 4) (k / 4)

/-- `ShiftRows(S)`: `S'[r,c] = S[r, (c + r) mod 4]` (R140). -/
def shiftRows (s : Bytes) : Bytes := stateOf fun r c => stateAt s r ((c + r) % 4)

/-- `InvShiftRows(S)`: `S'[r,c] = S[r, (c - r) mod 4]` (R140). -/
def invShiftRows (s : Bytes) : Bytes := stateOf fun r c => stateAt s r ((c + 4 - r) % 4)

/-- `MixColumns` of one column (R142). -/
def mixColumn (s0 s1 s2 s3 : Byte) : Bytes :=
  [gmul 2 s0 ^^^ gmul 3 s1 ^^^ s2 ^^^ s3,
   s0 ^^^ gmul 2 s1 ^^^ gmul 3 s2 ^^^ s3,
   s0 ^^^ s1 ^^^ gmul 2 s2 ^^^ gmul 3 s3,
   gmul 3 s0 ^^^ s1 ^^^ s2 ^^^ gmul 2 s3]

/-- `InvMixColumns` of one column (R142). -/
def invMixColumn (s0 s1 s2 s3 : Byte) : Bytes :=
  [gmul 0x0e s0 ^^^ gmul 0x0b s1 ^^^ gmul 0x0d s2 ^^^ gmul 0x09 s3,
   gmul 0x09 s0 ^^^ gmul 0x0e s1 ^^^ gmul 0x0b s2 ^^^ gmul 0x0d s3,
   gmul 0x0d s0 ^^^ gmul 0x09 s1 ^^^ gmul 0x0e s2 ^^^ gmul 0x0b s3,
   gmul 0x0b s0 ^^^ gmul 0x0d s1 ^^^ gmul 0x09 s2 ^^^ gmul 0x0e s3]

/-- A function of a column, on every column of the state in turn (R142). -/
def onColumns (f : Byte → Byte → Byte → Byte → Bytes) (s : Bytes) : Bytes :=
  (List.range 4).flatMap fun c => f (stateAt s 0 c) (stateAt s 1 c) (stateAt s 2 c) (stateAt s 3 c)

/-- `MixColumns(S)` (R142). -/
def mixColumns (s : Bytes) : Bytes := onColumns mixColumn s

/-- `InvMixColumns(S)` (R142). -/
def invMixColumns (s : Bytes) : Bytes := onColumns invMixColumn s

/-! ### The cipher and its inverse (R143, R147) -/

/-- Round `k` of `Cipher`, `k` = 1..13 (R143). -/
def cipherRound (rk : List Word) (k : Nat) (s : Bytes) : Bytes :=
  addRoundKey rk k (mixColumns (shiftRows (subBytes s)))

/-- The state after rounds 0 to `n` of `Cipher`, `n` <= 13 (R143). -/
def cipherRounds (rk : List Word) (block : Bytes) : Nat → Bytes
  | 0 => addRoundKey rk 0 block
  | n + 1 => cipherRound rk (n + 1) (cipherRounds rk block n)

/-- `Cipher(RK, in)`, `Nr` = 14 (R143); the last round has no `MixColumns`. -/
def cipher (rk : List Word) (block : Bytes) : Bytes :=
  addRoundKey rk 14 (shiftRows (subBytes (cipherRounds rk block 13)))

/-- Round `k` of `InvCipher`, `k` = 13 down to 1 (R147). -/
def invCipherRound (rk : List Word) (k : Nat) (s : Bytes) : Bytes :=
  invMixColumns (addRoundKey rk k (invSubBytes (invShiftRows s)))

/-- Rounds `n` down to 1 of `InvCipher` on a state (R147). -/
def invCipherRounds (rk : List Word) : Nat → Bytes → Bytes
  | 0, s => s
  | n + 1, s => invCipherRounds rk n (invCipherRound rk (n + 1) s)

/-- `InvCipher(RK, in)` (R147). -/
def invCipher (rk : List Word) (block : Bytes) : Bytes :=
  addRoundKey rk 0 (invSubBytes (invShiftRows (invCipherRounds rk 13 (addRoundKey rk 14 block))))

end Sys2Proof.Machine
end

