-- ==== Sys2Proof/Machine/Padding.lean ====
section
/-! DEFINITION. The PKCS#7 padding controller (43_padding_cbc R159 to R161): two pure functions, block size 16. -/

namespace Sys2Proof.Machine

/-- `p = 16 - (n mod 16)`, the number of padding bytes for `n` bytes of data: 1 to 16, never 0 (R160). -/
def padCount (n : Nat) : Nat := 16 - n % 16

/-- `pad(M) = M ‖ rep(p, p)` (R160). -/
def padBytes (m : Bytes) : Bytes :=
  m ++ List.replicate (padCount m.length) (BitVec.ofNat 8 (padCount m.length))

/-- `unpad(X)` for a string whose length is a positive multiple of 16: the data, or `none` for `invalid`. The last byte `p`
must be 1 to 16 and ALL of the last `p` bytes must equal it (R161). -/
def unpadBytes (x : Bytes) : Option Bytes :=
  let p := x.getD (x.length - 1) 0
  if p.toNat = 0 ∨ p.toNat > 16 then none
  else if (List.range p.toNat).any (fun k => x.getD (x.length - (k + 1)) 0 != p) then none
  else some (x.take (x.length - p.toNat))

end Sys2Proof.Machine
end

