-- ==== Sys2Proof/Machine/Cbc.lean ====
section
/-! DEFINITION. CBC chaining (43_padding_cbc R167 to R169) and the two contracts of the CipherEngine as pure functions
(44_pipeline R182, R183). -/

namespace Sys2Proof.Machine

/-- `CBCENC` over the blocks `M_1 .. M_q`, the chaining register at `c` (R168). -/
def cbcEncFrom (rk : List Word) (c : Bytes) : List Bytes → Bytes
  | [] => []
  | m :: rest =>
    let y := cipher rk (xorBytes m c)
    y ++ cbcEncFrom rk y rest

/-- `CBCENC(RK, iv, M)` (R168). -/
def cbcEnc (rk : List Word) (iv m : Bytes) : Bytes := cbcEncFrom rk iv (pieces 16 m)

/-- `CBCDEC` over the blocks `Y_1 .. Y_q`, the chaining register at `c` (R169). -/
def cbcDecFrom (rk : List Word) (c : Bytes) : List Bytes → Bytes
  | [] => []
  | y :: rest => xorBytes (invCipher rk y) c ++ cbcDecFrom rk y rest

/-- `CBCDEC(RK, iv, Y)` (R169). -/
def cbcDec (rk : List Word) (iv y : Bytes) : Bytes := cbcDecFrom rk iv (pieces 16 y)

/-- `encrypt_fn(P, key, iv) = iv ‖ CBCENC(KeyExpansion(key), iv, pad(P))` (R182). -/
def encryptFn (p key iv : Bytes) : Bytes := iv ++ cbcEnc (keyExpansion key) iv (padBytes p)

/-- The three failures of `decrypt_fn` (R183). -/
inductive DecryptFailure where
  | formatShort
  | formatAlign
  | integrity
deriving DecidableEq, Repr

/-- `decrypt_fn(Z, key)`: the failures are tested in this order (R183). -/
def decryptFn (z key : Bytes) : Except DecryptFailure Bytes :=
  if z.length < 16 then .error .formatShort
  else if z.length - 16 = 0 ∨ (z.length - 16) % 16 ≠ 0 then .error .formatAlign
  else
    match unpadBytes (cbcDec (keyExpansion key) (z.take 16) (z.drop 16)) with
    | none => .error .integrity
    | some r => .ok r

end Sys2Proof.Machine
end

