-- ==== Sys2Proof/Config.lean ====
section
/-! DEFINITION. What an implementation fixes (the parameters of 00_scope R9) and the environment's free answers
(the oracles of R10). The constants of R7 and R8 stand with the functions that use them. -/

namespace Sys2Proof

/-- The parameters the spec leaves open (R9): `pwMax` is `PW_MAX`, the capacity of the password buffer, and `bufMax` is
`BUF_MAX`, the capacity of each of `IN` and `OUT`. Every definition and statement is over all of them. -/
structure Params where
  pwMax : Nat
  bufMax : Nat
deriving DecidableEq, Repr

/-- The answer of the random source, asked once per `ENCRYPT` (R10, D12): 16 bytes, or `fail`. -/
inductive RngAnswer where
  | bytes (d : Vector Byte 16)
  | fail
deriving DecidableEq, Repr, Inhabited

/-- The parameters of the one machine `Sys2Proof.core`. DESIGN CHOICE (log 3), unsafe for a claim about
`State.reset` that leans on the two numbers; a statement needs no more of them than R9. -/
def Config.resetParams : Params := { pwMax := 256, bufMax := 4096 }

/-- FREE VALUE (log 4): what `prim_fault` answers to its `n`-th question when State lists no answer. No law (R10, D13). -/
opaque Config.primFault : Nat → Bool

/-- FREE VALUE (log 5): what `rng` answers to its `n`-th question when State lists no answer. No law (R10, D12). -/
opaque Config.rng : Nat → RngAnswer

end Sys2Proof
end

