-- ==== Sys2Proof/Machine/Port.lean ====
section
/-! DEFINITION. The host port: the five address spaces (20_memory R50) and the transactions a host can issue on it,
legal (R52) or not (R55), with the values that reads return. -/

namespace Sys2Proof.Machine

/-- The five address spaces of R50. `inp` is the space `IN`. -/
inductive Space where
  | reg
  | pw
  | inp
  | out
  | ivr
deriving DecidableEq, Repr

/-- The access sizes of a host read. R55 speaks of sub-word and of wide accesses (log 9). -/
inductive Width where
  | byte
  | half
  | word
  | dword
deriving DecidableEq, Repr

/-- The value of a host write, with its access size. -/
inductive Data where
  | byte (v : BitVec 8)
  | half (v : BitVec 16)
  | word (v : BitVec 32)
  | dword (v : BitVec 64)
deriving DecidableEq, Repr

/-- What the host, or the platform, does to the engine: `WR(space, off, v)` and `RD(space, off)` (R52), and the reset
event, "not a bus transaction" (30_encoding R75, 70_reset_and_hazards R230). -/
inductive Txn where
  | wr (space : Space) (off : Nat) (v : Data)
  | rd (space : Space) (off : Nat) (w : Width)
  | reset
deriving DecidableEq, Repr

/-- The value a read returned: a register word or a buffer byte (R52). -/
inductive Reply where
  | word (v : BitVec 32)
  | byte (v : BitVec 8)
deriving DecidableEq, Repr

end Sys2Proof.Machine
end

