-- ==== Sys2Proof/Machine/State.lean ====
section
/-! DEFINITION. The state of the machine, plain data: the architectural state of 10_state R20, the parameters, and the
model's own record of the host's transactions and of the oracles' answers; the reasons a step can stop; the state after
reset (R35). -/

namespace Sys2Proof.Machine

/-- The field `STATE` of `STATUS` (R27). -/
inductive Stage where
  /-- No command since reset or `CLEAR`. -/
  | idle
  /-- The last command succeeded. -/
  | done
  /-- The last accepted command failed with a non-fatal error; only `CLEAR` is accepted. -/
  | error
  /-- A fatal cryptographic error occurred; no command is accepted until reset. -/
  | fatal
deriving DecidableEq, Repr

/-- The error codes that `ERR` can hold (60_exceptions R201): "All other code values are never written". -/
inductive ErrCode where
  | none
  | formatShort
  | formatAlign
  | integrity
  | fatalPrim
  | fatalKey
  | fatalRng
  | illegalCmd
  | length
deriving DecidableEq, Repr

/-- A byte buffer as (offset, byte) pairs in one canonical form: offsets strictly rising, no entry equal to what an
unlisted offset reads as, the zero fill of R35 (log 6). -/
abbrev Memory := List Host.Cell

/-- The state of the machine. The first twelve fields are R20, "the complete architectural state of the engine ... and
nothing else"; the scratch registers of R32 and R33 survive no command and are no state (R34, log 7). -/
structure State where
  /-- `STATE` (R27). -/
  stage : Stage
  /-- `KEYV`: `KEY` holds a complete key (R23). -/
  keyv : Bool
  /-- `IVV`: `IV` holds the IV of the last successful `ENCRYPT` or `DECRYPT` (R23). -/
  ivv : Bool
  /-- `ERR` (R28). -/
  err : ErrCode
  /-- `PWLEN` (R29). -/
  pwlen : Word
  /-- `INLEN` (R29). -/
  inlen : Word
  /-- `OUTLEN` (R30). -/
  outlen : Word
  /-- `KEY` (R21). -/
  key : Vector Byte 32
  /-- `IV` (R22). -/
  iv : Vector Byte 16
  /-- `PW` (R31). -/
  pwBuf : Memory
  /-- `IN` (R31). -/
  inBuf : Memory
  /-- `OUT` (R31). -/
  outBuf : Memory
  /-- `PW_MAX` and `BUF_MAX` (00_scope R9); no step changes them (log 3). -/
  params : Params
  /-- The model's own: the host's transactions not yet served, oldest first (log 1). -/
  pending : List Txn
  /-- The model's own: what the served reads returned to the host, oldest first (log 2). -/
  returned : List Reply
  /-- The model's own: the next answers of `prim_fault` (log 4). -/
  primFaults : List Bool
  /-- The model's own: how often `prim_fault` was asked (log 4). -/
  primAsked : Nat
  /-- The model's own: the next answers of `rng` (log 5). -/
  rngs : List RngAnswer
  /-- The model's own: how often `rng` was asked (log 5). -/
  rngAsked : Nat
deriving DecidableEq, Repr

/-- What stops the machine with a fault: nothing. Every error of the spec is architectural, a next state with `STATE`
ERROR or FATAL and a code in `ERR` (60_exceptions R200, R210; log 11). -/
inductive Fault where
deriving DecidableEq, Repr

/-- The transactions the spec gives no meaning (20_memory R55): "the model refuses them (no state change, no value
returned)". All are raised by the host port of Machine/HostPort.lean, and all are safe: the model stops where hardware
"could ignore them, return zeros or signal a bus error". Which name is given where several fit is the model's (log 9). -/
inductive Refusal where
  /-- Raised by an arm of `exec` for an instruction that has no meaning yet. Safe. -/
  | notModelled (mnemonic : String)
  /-- An access to `REG` that is not a 32-bit access at a 4-byte-aligned offset below 0x18. Safe. -/
  | regAccessForm
  /-- A read of `CMD`. Safe. -/
  | cmdHasNoValue
  /-- A write of `STATUS`, `ERR` or `OUTLEN`. Safe. -/
  | registerIsReadOnly
  /-- An access to `PW`, `IN`, `OUT` or `IVR` wider than one byte. Safe. -/
  | wideBufferAccess
  /-- An offset at or beyond the size of `PW`, `IN`, `OUT` or `IVR`. Safe. -/
  | offsetBeyondSpace
  /-- A read of `PW` or `IN`. Safe. -/
  | spaceIsWriteOnly
  /-- A write of `OUT` or `IVR`. Safe. -/
  | spaceIsReadOnly
deriving DecidableEq, Repr

/-- The state after reset (R35) of the engine with parameters `p`, no transaction waiting and no oracle answer listed
(logs 1 to 5). -/
def State.resetWith (p : Params) : State where
  stage := .idle
  keyv := false
  ivv := false
  err := .none
  pwlen := 0
  inlen := 0
  outlen := 0
  key := Vector.replicate 32 0
  iv := Vector.replicate 16 0
  pwBuf := []
  inBuf := []
  outBuf := []
  params := p
  pending := []
  returned := []
  primFaults := []
  primAsked := 0
  rngs := []
  rngAsked := 0

/-- The machine right after reset (R35). -/
def State.reset : State := State.resetWith Config.resetParams

end Sys2Proof.Machine
end

