-- ==== Sys2Proof/Machine/Flags.lean ====
section
/-! DEFINITION. The status and error registers as the host reads them (10_state R27, R28), the code values and classes
of 60_exceptions R201, and the two validity flags (R23). -/

namespace Sys2Proof.Machine

/-- The value of the field `STATE` (R27). -/
def Stage.code : Stage → BitVec 2
  | .idle => 0
  | .done => 1
  | .error => 2
  | .fatal => 3

/-- The code that `ERR[7:0]` holds (R201). -/
def ErrCode.code : ErrCode → BitVec 8
  | .none => 0x00
  | .formatShort => 0x01
  | .formatAlign => 0x02
  | .integrity => 0x03
  | .fatalPrim => 0x04
  | .fatalKey => 0x05
  | .fatalRng => 0x06
  | .illegalCmd => 0x10
  | .length => 0x11

/-- The class of a code is a function of the code (R201): the `STATE` that its error entry leaves; `none` for no error. -/
def ErrCode.cls : ErrCode → Option Stage
  | .none => Option.none
  | .formatShort | .formatAlign | .integrity | .illegalCmd | .length => some .error
  | .fatalPrim | .fatalKey | .fatalRng => some .fatal

/-- `STATUS` (R27): bits [1:0] `STATE`, [3:2] reserved 0, [4] `KEYV`, [5] `IVV`, [31:6] reserved 0. -/
def statusWord (s : State) : Word :=
  (0 : BitVec 26) ++ BitVec.ofBool s.ivv ++ BitVec.ofBool s.keyv ++ (0 : BitVec 2) ++ s.stage.code

/-- `ERR` (R28): bits [7:0] the code, bits [31:8] read as 0. -/
def errWord (s : State) : Word := (0 : BitVec 24) ++ s.err.code

end Sys2Proof.Machine
end

