-- ==== Sys2Proof/Machine/Ops.lean ====
section
/-! DEFINITION. The named operations every meaning is written with: one byte and a run of bytes of a buffer, the
acceptance gate of 30_encoding R71, the error entry of 60_exceptions R210 and the two ways back from it (R211), the
success of a command, and the questions to the oracles (00_scope R10). -/

namespace Sys2Proof.Machine

/-! ### Buffers (20_memory R50, R58) -/

/-- One byte of a buffer; an unlisted byte reads as the zero fill (R35). -/
def Memory.read (m : Memory) (a : Nat) : Byte :=
  match m with
  | [] => 0
  | (b, v) :: rest => if a = b then v else Memory.read rest a

/-- Put a cell in front, unless it holds what an unlisted offset reads as. -/
def Memory.consCell (a : Nat) (v : Byte) (m : Memory) : Memory := if v = 0 then m else (a, v) :: m

/-- Write one byte, keeping the canonical form. -/
def Memory.write (m : Memory) (a : Nat) (v : Byte) : Memory :=
  match m with
  | [] => Memory.consCell a v []
  | (b, u) :: rest =>
    if a < b then Memory.consCell a v ((b, u) :: rest)
    else if a = b then Memory.consCell a v rest
    else (b, u) :: Memory.write rest a v

/-- `MemRead(space, off, n)` (R58): the bytes at `off, ..., off + n - 1`. -/
def memRead (m : Memory) (off n : Nat) : Bytes := (List.range n).map fun i => m.read (off + i)

/-- `MemWrite(space, off, n, v)` (R58), `n` the length of `v`. -/
def memWrite (m : Memory) (off : Nat) (v : Bytes) : Memory :=
  match v with
  | [] => m
  | b :: rest => memWrite (m.write off b) (off + 1) rest

/-- The canonical form: offsets strictly rising, and no entry that says what an unlisted offset reads as. -/
def Memory.wf (m : Memory) : Bool :=
  match m with
  | [] => true
  | (a, v) :: rest => decide (v ≠ 0) && rest.all (fun c => decide (a < c.1)) && Memory.wf rest

/-- Every listed offset is below the capacity `n` of its space (R50). -/
def Memory.within (m : Memory) (n : Nat) : Bool := m.all fun c => decide (c.1 < n)

/-! ### Errors: entry and recovery -/

/-- `raise Error(code)` (R210): `STATE <- ERROR; ERR <- code; OUTLEN <- 0`, and nothing else. -/
def raiseError (c : ErrCode) (s : State) : State := { s with stage := .error, err := c, outlen := 0 }

/-- `raise Fatal(code)` (R210): as an error, with `STATE <- FATAL`, and `KEYV <- 0; IVV <- 0`. -/
def raiseFatal (c : ErrCode) (s : State) : State :=
  { s with stage := .fatal, err := c, outlen := 0, keyv := false, ivv := false }

/-- Every state element of the engine at its reset value (R35): the effect of the reset event (R230) and of `CLEAR`
(R190), which "produces exactly the state reset produces" (R231). The host's transactions, the values already returned,
the oracles and the parameters are no part of the engine and stay. -/
def zeroAll (s : State) : State :=
  { s with
    stage := .idle, err := .none, keyv := false, ivv := false,
    pwlen := 0, inlen := 0, outlen := 0,
    key := Vector.replicate 32 0, iv := Vector.replicate 16 0,
    pwBuf := [], inBuf := [], outBuf := [] }

/-! ### Acceptance and success -/

/-- The gate of R71 for every word but `CLEAR`: FATAL and ERROR ignore it with no state change, IDLE and DONE run it. -/
def accept (s : State) (run : State → State) : State :=
  match s.stage with
  | .fatal => s
  | .error => s
  | .idle => run s
  | .done => run s

/-- The gate of R71 for `CLEAR`: ignored in FATAL only. -/
def acceptClear (s : State) (run : State → State) : State :=
  match s.stage with
  | .fatal => s
  | .error => run s
  | .idle => run s
  | .done => run s

/-- The end of a command that raised nothing (R71): `STATE <- DONE, ERR <- 0`. -/
def succeed (s : State) : State := { s with stage := .done, err := .none }

/-- A word that is no command (R74, R204): `E_ILLEGAL_CMD` in IDLE and DONE, ignored in ERROR and FATAL. -/
def illegalCommand (s : State) : State := accept s fun s => raiseError .illegalCmd s

/-! ### The oracles (R10, R207, R208) -/

/-- What `prim_fault` answers if it is asked now: the next answer State lists, else the free value (log 4). -/
def primFaultAnswer (s : State) : Bool :=
  match s.primFaults with
  | [] => Config.primFault s.primAsked
  | b :: _ => b

/-- The state once `prim_fault` has been asked. -/
def primFaultAsked (s : State) : State :=
  { s with primFaults := s.primFaults.tail, primAsked := s.primAsked + 1 }

/-- What `rng` answers if it is asked now: the next answer State lists, else the free value (log 5). -/
def rngAnswer (s : State) : RngAnswer :=
  match s.rngs with
  | [] => Config.rng s.rngAsked
  | d :: _ => d

/-- The state once `rng` has been asked. -/
def rngWasAsked (s : State) : State := { s with rngs := s.rngs.tail, rngAsked := s.rngAsked + 1 }

/-- Ask `prim_fault`; `E_FATAL_PRIM` if it answers true, else go on (R207). -/
def checkPrim (s : State) (run : State → State) : State :=
  if primFaultAnswer s then raiseFatal .fatalPrim (primFaultAsked s) else run (primFaultAsked s)

/-- Draw 16 bytes from `rng`; `E_FATAL_RNG` if it fails, else go on with them (R184, R185). -/
def drawIv (s : State) (run : Vector Byte 16 → State → State) : State :=
  match rngAnswer s with
  | .fail => raiseFatal .fatalRng (rngWasAsked s)
  | .bytes d => run d (rngWasAsked s)

end Sys2Proof.Machine
end

