-- ==== Sys2Proof/Machine/Operands.lean ====
section
/-! DEFINITION. The implicit operands of 30_encoding R73: the prefixes a command reads, whether the declared lengths fit
(60_exceptions R205), the result lengths, and what a commit block writes. -/

namespace Sys2Proof.Machine

/-- `PWLEN` as a length in bytes (R29). -/
def pwLength (s : State) : Nat := s.pwlen.toNat

/-- `INLEN` as a length in bytes (R29). -/
def inLength (s : State) : Nat := s.inlen.toNat

/-- `PW[0..PWLEN)` (R31, R58). -/
def pwOperand (s : State) : Bytes := memRead s.pwBuf 0 (pwLength s)

/-- `IN[0..INLEN)` (R31, R58). -/
def inOperand (s : State) : Bytes := memRead s.inBuf 0 (inLength s)

/-- `KEY` as a byte string (R21). -/
def keyBytes (s : State) : Bytes := s.key.toList

/-- `PWLEN > PW_MAX` (R205). -/
def pwTooLong (s : State) : Bool := decide (pwLength s > s.params.pwMax)

/-- `INLEN > BUF_MAX` (R205). -/
def inTooLong (s : State) : Bool := decide (inLength s > s.params.bufMax)

/-- The length of `pad` of `n` bytes, `16 * (n div 16 + 1)` (43_padding_cbc R160). -/
def padLength (n : Nat) : Nat := 16 * (n / 16 + 1)

/-- `enclen(n) = 16 + 16 * (n div 16 + 1)`, the length of the blob of `n` bytes (44_pipeline R181). -/
def encLength (n : Nat) : Nat := 16 + 16 * (n / 16 + 1)

/-- `MemWrite(OUT, 0, len(v), v); OUTLEN <- len(v)`: exactly the prefix of the result's length, the other bytes of `OUT`
as they were (R31). -/
def writeResult (v : Bytes) (s : State) : State :=
  { s with outBuf := memWrite s.outBuf 0 v, outlen := BitVec.ofNat 32 v.length }

/-- `KEY <- v; KEYV <- 1`: the key is written as a whole (R21, R23). -/
def loadKey (v : Bytes) (s : State) : State := { s with key := toReg 32 v, keyv := true }

/-- `IV <- d; IVV <- 1` (R22, R23). -/
def storeIv (d : Vector Byte 16) (s : State) : State := { s with iv := d, ivv := true }

/-- `OUTLEN <- 0` at the commit of a command that has no result bytes (R152). -/
def noResult (s : State) : State := { s with outlen := 0 }

end Sys2Proof.Machine
end

