-- ==== Sys2Proof/Machine/CipherCommands.lean ====
section
/-! DEFINITION. The commands of the AES core and of the CipherEngine: `LDKEY`, `AESENCB`, `AESDECB` (42_aes R152 to R154),
`ENCRYPT` and `DECRYPT` (44_pipeline R184, R186). -/

namespace Sys2Proof.Machine

/-- `LDKEY` (R152): `KEY <- IN[0..32)`; any other length is a bad key length, which is fatal. Asks no oracle. -/
def execLdkey (s : State) : Host.Outcome State Fault Refusal :=
  .next <| accept s fun s =>
    if inTooLong s then raiseError .length s else
    if inLength s ≠ 32 then raiseFatal .fatalKey s else
    succeed (noResult (loadKey (memRead s.inBuf 0 32) s))

/-- The two block commands (R153, R154), which differ in the block function only. -/
def blockCommand (f : List Word → Bytes → Bytes) (s : State) : State :=
  accept s fun s =>
    if inLength s ≠ 16 then raiseError .length s else
    if s.keyv = false then raiseFatal .fatalKey s else
    checkPrim s fun s =>
    succeed (writeResult (f (keyExpansion (keyBytes s)) (memRead s.inBuf 0 16)) s)

/-- `AESENCB` (R153): `OUT[0..16) <- Cipher(KeyExpansion(KEY), IN[0..16))`. -/
def execAesencb (s : State) : Host.Outcome State Fault Refusal := .next (blockCommand cipher s)

/-- `AESDECB` (R154): `OUT[0..16) <- InvCipher(KeyExpansion(KEY), IN[0..16))`. -/
def execAesdecb (s : State) : Host.Outcome State Fault Refusal := .next (blockCommand invCipher s)

/-- `ENCRYPT` (R184): `prim_fault` is asked, then `rng`, each only if every earlier check passed (R208). -/
def execEncrypt (s : State) : Host.Outcome State Fault Refusal :=
  .next <| accept s fun s =>
    if inTooLong s || decide (encLength (inLength s) > s.params.bufMax) then raiseError .length s else
    if s.keyv = false then raiseFatal .fatalKey s else
    checkPrim s fun s =>
    drawIv s fun d s =>
    succeed (writeResult (encryptFn (inOperand s) (keyBytes s) d.toList) (storeIv d s))

/-- `DECRYPT` (R186): `IV` and `OUT` are written at commit only. The two length failures of `decrypt_fn` cannot occur
here, since the length checks stand before it. -/
def execDecrypt (s : State) : Host.Outcome State Fault Refusal :=
  .next <| accept s fun s =>
    if inTooLong s then raiseError .length s else
    if inLength s < 16 then raiseError .formatShort s else
    if inLength s = 16 ∨ (inLength s - 16) % 16 ≠ 0 then raiseError .formatAlign s else
    if s.keyv = false then raiseFatal .fatalKey s else
    checkPrim s fun s =>
    match decryptFn (inOperand s) (keyBytes s) with
    | .error .formatShort => raiseError .formatShort s
    | .error .formatAlign => raiseError .formatAlign s
    | .error .integrity => raiseError .integrity s
    | .ok r => succeed (writeResult r (storeIv (toReg 16 (inOperand s)) s))

end Sys2Proof.Machine
end

