-- ==== Sys2Proof/Machine/ControlCommands.lean ====
section
/-! DEFINITION. The control command: `CLEAR` (44_pipeline R190). -/

namespace Sys2Proof.Machine

/-- `CLEAR` (R190): accepted in IDLE, DONE and ERROR, ignored in FATAL; never fails and asks no oracle; ends in IDLE. -/
def execClear (s : State) : Host.Outcome State Fault Refusal := .next (acceptClear s zeroAll)

end Sys2Proof.Machine
end

