-- ==== Sys2Proof/Machine/Sha1Core.lean ====
section
/-! DEFINITION. The SHA-1 core (40_sha1 R90 to R99): pure functions of byte strings. The registers of 10_state R32 are
their arguments and local values; nothing of them survives a command (R34). -/

namespace Sys2Proof.Machine

/-- `H[0..4]`, and the working variables `a, b, c, d, e` (R32). -/
structure Sha1Regs where
  a : Word
  b : Word
  c : Word
  d : Word
  e : Word
deriving DecidableEq, Repr

/-- `SHA1.INIT`: the initial chaining value `H0` (R91, R94). -/
def sha1Init : Sha1Regs := ⟨0x67452301, 0xEFCDAB89, 0x98BADCFE, 0x10325476, 0xC3D2E1F0⟩

/-- The round constant `K(t)` (R91). -/
def sha1K (t : Nat) : Word :=
  if t ≤ 19 then 0x5A827999 else if t ≤ 39 then 0x6ED9EBA1 else if t ≤ 59 then 0x8F1BBCDC else 0xCA62C1D6

/-- The round function `f(t, x, y, z)`: Ch, Parity, Maj, Parity (R92). -/
def sha1F (t : Nat) (x y z : Word) : Word :=
  if t ≤ 19 then (x &&& y) ||| (~~~x &&& z)
  else if t ≤ 39 then x ^^^ y ^^^ z
  else if t ≤ 59 then (x &&& y) ||| (x &&& z) ||| (y &&& z)
  else x ^^^ y ^^^ z

/-- One word more of the schedule: `W[t]` from the words before it, with `t = k + 16` (R93). -/
def sha1SchedStep (w : List Word) (k : Nat) : List Word :=
  w ++ [rotl 1 (w.getD (k + 13) 0 ^^^ w.getD (k + 8) 0 ^^^ w.getD (k + 2) 0 ^^^ w.getD k 0)]

/-- `SHA1.SCHED(B)`: the message schedule `W[0..79]` of one 64-byte block (R93). -/
def sha1Sched (block : Bytes) : List Word :=
  (List.range 64).foldl sha1SchedStep ((pieces 4 block).map beWord)

/-- One round of `SHA1.COMPRESS` (R95); every addition is modulo 2^32 (R97). -/
def sha1Round (w : List Word) (r : Sha1Regs) (t : Nat) : Sha1Regs :=
  { a := rotl 5 r.a + sha1F t r.b r.c r.d + r.e + sha1K t + w.getD t 0
    b := r.a
    c := rotl 30 r.b
    d := r.c
    e := r.d }

/-- The 80 rounds over a block, from a chaining value (R95). -/
def sha1Rounds (h : Sha1Regs) (block : Bytes) : Sha1Regs :=
  (List.range 80).foldl (sha1Round (sha1Sched block)) h

/-- `SHA1.COMPRESS(B)`: absorb one 64-byte block into the chaining value (R95). -/
def sha1Compress (h : Sha1Regs) (block : Bytes) : Sha1Regs :=
  let r := sha1Rounds h block
  ⟨h.a + r.a, h.b + r.b, h.c + r.c, h.d + r.d, h.e + r.e⟩

/-- `z = (55 - L) mod 64`, the mathematical, non-negative remainder (R96). -/
def sha1ZeroCount (len : Nat) : Nat := (((55 : Int) - len) % 64).toNat

/-- `SHA1.PADMSG(M) = M ‖ 0x80 ‖ rep(0x00, z) ‖ be64(8 * L)` (R96). -/
def sha1PadMsg (m : Bytes) : Bytes :=
  m ++ [0x80] ++ List.replicate (sha1ZeroCount m.length) 0 ++ be64 (8 * m.length)

/-- `SHA1.DIGEST` (R99). -/
def sha1Digest (h : Sha1Regs) : Bytes := be32 h.a ++ be32 h.b ++ be32 h.c ++ be32 h.d ++ be32 h.e

/-- `SHA1(M)`: the whole hash, blocks in order (R98). -/
def sha1 (m : Bytes) : Bytes := sha1Digest ((pieces 64 (sha1PadMsg m)).foldl sha1Compress sha1Init)

end Sys2Proof.Machine
end

