-- ==== Sys2Proof/Machine/Hmac.lean ====
section
/-! DEFINITION. HMAC-SHA1, PBKDF2 and the KeyDeriver (41_hmac_pbkdf2 R110 to R119): pure functions. -/

namespace Sys2Proof.Machine

/-- `K0`: the key, hashed first if it is longer than a block of 64 bytes, then zero-padded to exactly 64 (R111). -/
def hmacK0 (k : Bytes) : Bytes :=
  let k' := if k.length > 64 then sha1 k else k
  k' ++ List.replicate (64 - k'.length) 0

/-- `HMAC(K, text)` (R111), `ipad` 0x36 and `opad` 0x5C. -/
def hmac (k text : Bytes) : Bytes :=
  let k0 := hmacK0 k
  let ikey := xorBytes k0 (List.replicate 64 0x36)
  let okey := xorBytes k0 (List.replicate 64 0x5C)
  sha1 (okey ++ sha1 (ikey ++ text))

/-- `INT(i)`: the block index as four bytes, most significant first (R116). -/
def pbkdf2Int (i : Nat) : Bytes := be32 (BitVec.ofNat 32 i)

/-- The iterations `j = 2 .. c` of the block function, `n` of them: `U <- HMAC(P, U); T <- T XOR U` (R117). -/
def pbkdf2Iterate (p : Bytes) : (n : Nat) → (u t : Bytes) → Bytes
  | 0, _, t => t
  | n + 1, u, t =>
    let u' := hmac p u
    pbkdf2Iterate p n u' (xorBytes t u')

/-- `F(P, S, c, i)`: one output block (R117); the password is the HMAC key. -/
def pbkdf2F (p salt : Bytes) (c i : Nat) : Bytes :=
  let u := hmac p (salt ++ pbkdf2Int i)
  pbkdf2Iterate p (c - 1) u u

/-- `PBKDF2(P, S, c, dkLen)` with `hLen` = 20: the first `dkLen` bytes of the blocks 1, 2, ..., ceil(dkLen / 20) (R118). -/
def pbkdf2 (p salt : Bytes) (c dkLen : Nat) : Bytes :=
  ((List.range ((dkLen + 19) / 20)).flatMap fun k => pbkdf2F p salt c (k + 1)).take dkLen

/-- `SALT`, the eight characters "12345678" (00_scope R7). -/
def saltBytes : Bytes := [0x31, 0x32, 0x33, 0x34, 0x35, 0x36, 0x37, 0x38]

/-- `ITER`, the iteration count (R7). -/
def iterCount : Nat := 10000

/-- `DKLEN`, the length of the derived key (R7). -/
def keyLength : Nat := 32

/-- The KeyDeriver: `derive(P) = PBKDF2(P, SALT, 10000, 32)` (R119). Irreducible, so that no proof starts to run the 10000
iterations by itself. -/
@[irreducible] def deriveKey (p : Bytes) : Bytes := pbkdf2 p saltBytes iterCount keyLength

end Sys2Proof.Machine
end

