-- ==== Sys2Proof/Machine/HashCommands.lean ====
section
/-! DEFINITION. The commands of the SHA-1 core and of the KeyDeriver: `SHA1` (40_sha1 R101), `HMAC` and `DERIVE`
(41_hmac_pbkdf2 R114, R121). -/

namespace Sys2Proof.Machine

/-- `SHA1` (R101): `OUT[0..20) <- SHA-1(IN[0..INLEN))`. -/
def execSha1 (s : State) : Host.Outcome State Fault Refusal :=
  .next <| accept s fun s =>
    if inTooLong s then raiseError .length s else
    checkPrim s fun s =>
    succeed (writeResult (sha1 (inOperand s)) s)

/-- `HMAC` (R114): `OUT[0..20) <- HMAC-SHA1(PW[0..PWLEN), IN[0..INLEN))`. -/
def execHmac (s : State) : Host.Outcome State Fault Refusal :=
  .next <| accept s fun s =>
    if pwTooLong s || inTooLong s then raiseError .length s else
    checkPrim s fun s =>
    succeed (writeResult (hmac (pwOperand s) (inOperand s)) s)

/-- `DERIVE` (R121): `KEY <- derive(PW[0..PWLEN))`, and the copy in `OUT[0..32)`. -/
def execDerive (s : State) : Host.Outcome State Fault Refusal :=
  .next <| accept s fun s =>
    if pwTooLong s then raiseError .length s else
    checkPrim s fun s =>
    let dk := deriveKey (pwOperand s)
    succeed (writeResult dk (loadKey dk s))

end Sys2Proof.Machine
end

