-- ==== Sys2Proof/Machine/PadCommands.lean ====
section
/-! DEFINITION. The commands of the padding controller: `PAD` and `UNPAD` (43_padding_cbc R164, R165). -/

namespace Sys2Proof.Machine

/-- `PAD` (R164): `OUT <- pad(IN[0..INLEN))`. Asks no oracle. -/
def execPad (s : State) : Host.Outcome State Fault Refusal :=
  .next <| accept s fun s =>
    if inTooLong s || decide (padLength (inLength s) > s.params.bufMax) then raiseError .length s else
    succeed (writeResult (padBytes (inOperand s)) s)

/-- `UNPAD` (R165): `OUT <- unpad(IN[0..INLEN))`; an empty result is a success. Asks no oracle. -/
def execUnpad (s : State) : Host.Outcome State Fault Refusal :=
  .next <| accept s fun s =>
    if inTooLong s then raiseError .length s else
    if inLength s = 0 ∨ inLength s % 16 ≠ 0 then raiseError .formatAlign s else
    match unpadBytes (inOperand s) with
    | none => raiseError .integrity s
    | some r => succeed (writeResult r s)

end Sys2Proof.Machine
end

