-- ==== Sys2Proof/Machine/Dispatch.lean ====
section
/-! DEFINITION. One arm per command: the whole effect of writing its word to `CMD` in any state, the acceptance gate of
30_encoding R71 included. -/

namespace Sys2Proof.Machine

def exec (i : Instr) (s : State) : Host.Outcome State Fault Refusal :=
  match i with
  | .derive => Sys2Proof.Machine.execDerive s
  | .encrypt => Sys2Proof.Machine.execEncrypt s
  | .decrypt => Sys2Proof.Machine.execDecrypt s
  | .ldkey => Sys2Proof.Machine.execLdkey s
  | .clear => Sys2Proof.Machine.execClear s
  | .sha1 => Sys2Proof.Machine.execSha1 s
  | .hmac => Sys2Proof.Machine.execHmac s
  | .aesencb => Sys2Proof.Machine.execAesencb s
  | .aesdecb => Sys2Proof.Machine.execAesdecb s
  | .pad => Sys2Proof.Machine.execPad s
  | .unpad => Sys2Proof.Machine.execUnpad s

end Sys2Proof.Machine
end

