-- ==== Sys2Proof/Machine/HostPort.lean ====
section
/-! DEFINITION. Serving one host transaction: the registers and byte spaces of 20_memory R50 and R51, the effects of R52,
the refusals of R55, and the reset event (70_reset_and_hazards R230). -/

namespace Sys2Proof.Machine

/-- A word written to `CMD` (30_encoding R71): decode and execute, or the illegal word's entry (R74, R204). The gate on
`STATE` stands in each meaning and in `illegalCommand` (log 8). -/
def runCommandWord (v : Word) (s : State) : Host.Outcome State Fault Refusal :=
  match decode v with
  | .ok i => exec i s
  | .error _ => .next (illegalCommand s)

/-- `WR(REG, off, v)` with a 32-bit `v` (R51, R52). -/
def writeRegister (off : Nat) (v : Word) (s : State) : Host.Outcome State Fault Refusal :=
  match off with
  | 0x00 => runCommandWord v s
  | 0x04 => .refused .registerIsReadOnly
  | 0x08 => .refused .registerIsReadOnly
  | 0x0C => .next { s with pwlen := v }
  | 0x10 => .next { s with inlen := v }
  | 0x14 => .refused .registerIsReadOnly
  | _ => .refused .regAccessForm

/-- `RD(REG, off)`: the value of the register (R51, R52). -/
def readRegister (off : Nat) (s : State) : Except Refusal Word :=
  match off with
  | 0x00 => .error .cmdHasNoValue
  | 0x04 => .ok (statusWord s)
  | 0x08 => .ok (errWord s)
  | 0x0C => .ok s.pwlen
  | 0x10 => .ok s.inlen
  | 0x14 => .ok s.outlen
  | _ => .error .regAccessForm

/-- `WR(space, off, v)` (R52, R55). -/
def hostWrite (space : Space) (off : Nat) (v : Data) (s : State) : Host.Outcome State Fault Refusal :=
  match space, v with
  | .reg, .word w => writeRegister off w s
  | .reg, .byte _ | .reg, .half _ | .reg, .dword _ => .refused .regAccessForm
  | .pw, .byte b =>
    if off < s.params.pwMax then .next { s with pwBuf := s.pwBuf.write off b } else .refused .offsetBeyondSpace
  | .inp, .byte b =>
    if off < s.params.bufMax then .next { s with inBuf := s.inBuf.write off b } else .refused .offsetBeyondSpace
  | .pw, .half _ | .pw, .word _ | .pw, .dword _ => .refused .wideBufferAccess
  | .inp, .half _ | .inp, .word _ | .inp, .dword _ => .refused .wideBufferAccess
  | .out, _ | .ivr, _ => .refused .spaceIsReadOnly

/-- The value that `RD(space, off)` returns, or why it is refused (R52, R53, R55). -/
def hostRead (space : Space) (off : Nat) (w : Width) (s : State) : Except Refusal Reply :=
  match space, w with
  | .reg, .word => (readRegister off s).map .word
  | .reg, .byte | .reg, .half | .reg, .dword => .error .regAccessForm
  | .out, .byte => if off < s.params.bufMax then .ok (.byte (s.outBuf.read off)) else .error .offsetBeyondSpace
  | .ivr, .byte => if off < 16 then .ok (.byte (s.iv.toList.getD off 0)) else .error .offsetBeyondSpace
  | .out, .half | .out, .word | .out, .dword => .error .wideBufferAccess
  | .ivr, .half | .ivr, .word | .ivr, .dword => .error .wideBufferAccess
  | .pw, _ | .inp, _ => .error .spaceIsWriteOnly

/-- One transaction, from beginning to end (R52, R60): a write takes effect, a read returns its value to the host and
changes nothing, the reset event puts every state element at its reset value (R230). -/
def serve (t : Txn) (s : State) : Host.Outcome State Fault Refusal :=
  match t with
  | .wr space off v => hostWrite space off v s
  | .rd space off w =>
    match hostRead space off w s with
    | .ok r => .next { s with returned := s.returned ++ [r] }
    | .error e => .refused e
  | .reset => .next (zeroAll s)

end Sys2Proof.Machine
end

