-- ==== Sys2Proof/Machine/Step.lean ====
section
/-! DEFINITION. One step: the next host transaction is served (20_memory R60). The engine has no program counter and
fetches nothing (10_state R25); its program is the list of transactions, held in `State.pending` (log 1). -/

namespace Sys2Proof.Machine

/-- Serve the oldest waiting transaction; with none waiting the engine is idle and keeps all state (60_exceptions R215). -/
def step (s : State) : Host.Outcome State Fault Refusal :=
  match s.pending with
  | [] => .next s
  | t :: rest => serve t { s with pending := rest }

/-- The state in which the very next step runs the command word that the opcode table writes as `w` in `nbits` bits: its
write to `CMD` is the next transaction (log 1). Nothing else changes. -/
def State.withFetchWord (s : State) (nbits w : Nat) : State :=
  { s with pending := .wr .reg 0x00 (.word (tableWord nbits w)) :: s.pending }

end Sys2Proof.Machine
end

