-- ==== Sys2Proof/Machine/Script.lean ====
section
/-! DEFINITION. The host-script lines and pseudo-instructions of 30_encoding R75 and R76 as the transactions they stand
for. A program's encoding is its list of transactions; a host runs one by having it in `State.pending` (log 1). -/

namespace Sys2Proof.Machine

/-- `CMD <mnemonic>` (R75). -/
def Script.cmd (i : Instr) : Txn := .wr .reg 0x00 (.word (encode i))

/-- `CMDW <word>` (R75). -/
def Script.cmdw (v : Word) : Txn := .wr .reg 0x00 (.word v)

/-- `SETPWLEN <n>` (R75). -/
def Script.setPwLen (n : Word) : Txn := .wr .reg 0x0C (.word n)

/-- `SETINLEN <n>` (R75). -/
def Script.setInLen (n : Word) : Txn := .wr .reg 0x10 (.word n)

/-- `WRPW <off>, <byte>` (R75). -/
def Script.wrPw (off : Nat) (b : Byte) : Txn := .wr .pw off (.byte b)

/-- `WRIN <off>, <byte>` (R75). -/
def Script.wrIn (off : Nat) (b : Byte) : Txn := .wr .inp off (.byte b)

/-- `RDST` (R75). -/
def Script.rdSt : Txn := .rd .reg 0x04 .word

/-- `RDERR` (R75). -/
def Script.rdErr : Txn := .rd .reg 0x08 .word

/-- `RDPWLEN` (R75). -/
def Script.rdPwLen : Txn := .rd .reg 0x0C .word

/-- `RDINLEN` (R75). -/
def Script.rdInLen : Txn := .rd .reg 0x10 .word

/-- `RDOUTLEN` (R75). -/
def Script.rdOutLen : Txn := .rd .reg 0x14 .word

/-- `RDOUT <off>` (R75). -/
def Script.rdOut (off : Nat) : Txn := .rd .out off .byte

/-- `RDIV <off>` (R75). -/
def Script.rdIv (off : Nat) : Txn := .rd .ivr off .byte

/-- `LOADPW <bytes>` (R76). -/
def Script.loadPw (b : Bytes) : List Txn :=
  b.mapIdx (fun k v => Script.wrPw k v) ++ [Script.setPwLen (BitVec.ofNat 32 b.length)]

/-- `LOADIN <bytes>` (R76). -/
def Script.loadIn (b : Bytes) : List Txn :=
  b.mapIdx (fun k v => Script.wrIn k v) ++ [Script.setInLen (BitVec.ofNat 32 b.length)]

/-- `READOUT`, once `RDOUTLEN` has given `n` (R76). -/
def Script.readOut (n : Nat) : List Txn := Script.rdOutLen :: (List.range n).map Script.rdOut

/-- `READIV` (R76). -/
def Script.readIv : List Txn := (List.range 16).map Script.rdIv

/-- `OUT2IN`, for a result `b` that `READOUT` returned (R76): the host copies it back as the next input. -/
def Script.outToIn (b : Bytes) : List Txn := Script.readOut b.length ++ Script.loadIn b

end Sys2Proof.Machine
end

