-- ==== Sys2Proof/WellFormed.lean ====
section
/-! DEFINITION. Well-formedness: of the parameters (00_scope R9), of an instruction (30_encoding R70: no fields, so no
check can fail) and of a host transaction (20_memory R52). -/

namespace Sys2Proof

/-- The constraints of R9: `1 <= PW_MAX < 2^32`; `64 <= BUF_MAX < 2^32`, a multiple of 16. -/
def Params.wf (p : Params) : Bool :=
  decide (1 ≤ p.pwMax) && decide (p.pwMax < 2 ^ 32) &&
  decide (64 ≤ p.bufMax) && decide (p.bufMax < 2 ^ 32) && decide (p.bufMax % 16 = 0)

/-- R70, R73: a command has no register field, no immediate and no mode bit, so every command is well formed. -/
def Instr.wf (i : Instr) : Bool :=
  match i with
  | .derive | .encrypt | .decrypt | .ldkey | .clear | .sha1 | .hmac | .aesencb | .aesdecb | .pad | .unpad => true

/-- The transactions that have a meaning (R52); every other one is refused (R55). -/
def Machine.Txn.wf (p : Params) : Machine.Txn → Bool
  | .wr .reg off (.word _) => decide (off = 0x00) || decide (off = 0x0C) || decide (off = 0x10)
  | .wr .pw off (.byte _) => decide (off < p.pwMax)
  | .wr .inp off (.byte _) => decide (off < p.bufMax)
  | .wr _ _ _ => false
  | .rd .reg off .word =>
    decide (off = 0x04) || decide (off = 0x08) || decide (off = 0x0C) || decide (off = 0x10) || decide (off = 0x14)
  | .rd .out off .byte => decide (off < p.bufMax)
  | .rd .ivr off .byte => decide (off < 16)
  | .rd _ _ _ => false
  | .reset => true

end Sys2Proof
end

