-- ==== Sys2Proof/Safety.lean ====
section
/-! DEFINITION. The terms the statements are written in: when a command is accepted, what a result's write leaves in a
buffer, and the invariant of every state a run reaches (10_state R36). -/

namespace Sys2Proof.Machine

/-- A command word is executed (30_encoding R71): `STATE` is IDLE or DONE. -/
def State.ready (s : State) : Bool :=
  match s.stage with
  | .idle => true
  | .done => true
  | .error => false
  | .fatal => false

/-- `m'` is `m` with the string `v` written over its first bytes, and every other byte as it was (20_memory R58). -/
def HoldsResult (m m' : Memory) (v : Bytes) : Prop :=
  ∀ a, m'.read a = if a < v.length then v.getD a 0 else m.read a

/-- What 10_state R36 says of every reachable state, with the canonical form of the three buffers and the constraints of
00_scope R9 on the parameters. -/
structure State.Inv (s : State) : Prop where
  /-- The parameters meet R9. -/
  params_wf : s.params.wf = true
  /-- R36 (1), R28: `ERR` is 0 exactly when `STATE` is IDLE or DONE. -/
  err_none : s.err = .none ↔ s.ready = true
  /-- R200, R201: the class of the code is the `STATE` the error left. -/
  err_class : ∀ g, s.err.cls = some g → s.stage = g
  /-- R36 (2): ERROR and FATAL imply `OUTLEN` = 0. -/
  failed_outlen : s.ready = false → s.outlen = 0
  /-- R36 (3): FATAL implies `KEYV` = 0 and `IVV` = 0. -/
  fatal_flags : s.stage = .fatal → s.keyv = false ∧ s.ivv = false
  /-- R36 (4): `OUTLEN` is at most `BUF_MAX`. -/
  outlen_le : s.outlen.toNat ≤ s.params.bufMax
  /-- R36 (5): IDLE implies `KEYV` = `IVV` = 0; `OUTLEN`, which only commands write, is zero still. -/
  idle_clear : s.stage = .idle → s.keyv = false ∧ s.ivv = false ∧ s.outlen = 0
  /-- `PW` is in canonical form and inside its space (R31, 20_memory R50). -/
  pw_wf : s.pwBuf.wf = true ∧ s.pwBuf.within s.params.pwMax = true
  /-- `IN` is in canonical form and inside its space. -/
  in_wf : s.inBuf.wf = true ∧ s.inBuf.within s.params.bufMax = true
  /-- `OUT` is in canonical form and inside its space. -/
  out_wf : s.outBuf.wf = true ∧ s.outBuf.within s.params.bufMax = true

end Sys2Proof.Machine
end

