-- ==== Sys2Proof/Certificates/Slice0/Obligations.lean ====
section
/-! DEFINITION. The statements about the engine, from the numbered rules of spec/. Each docstring names its rules.

A statement about a command that completes says its whole frame: the next state is written as the state before with the
fields the command writes, so every field not named is unchanged; for `OUT` it says of every byte what it reads as.
Statements that a command waits on an oracle take the answer as a hypothesis on the state and hold for every value of
the free answers (logs 4, 5). -/

open Sys2Proof Sys2Proof.Machine

/-! ### Encoding -/

/-- R70, R72: the decoder reads back every command's word. -/
def Obligations.DecodeOfEncodeIsTheCommand : Prop :=
  ∀ i : Instr, i.wf = true → decode (encode i) = .ok i

/-- R70, R72, R74: the whole word is compared; only the eleven words are commands, each of one command. -/
def Obligations.OnlyTheElevenWordsDecode : Prop :=
  ∀ (w : Word) (i : Instr), decode w = .ok i → w = encode i

/-- R72, R74: the eleven words of the map, and three illegal ones (95_test_vectors V9.5 to V9.7). -/
def Obligations.WordsOfTheOpcodeMap : Prop :=
  decode 0x00000001 = .ok .derive ∧ decode 0x00000002 = .ok .encrypt ∧ decode 0x00000003 = .ok .decrypt ∧
  decode 0x00000004 = .ok .ldkey ∧ decode 0x00000005 = .ok .clear ∧ decode 0x00000010 = .ok .sha1 ∧
  decode 0x00000011 = .ok .hmac ∧ decode 0x00000020 = .ok .aesencb ∧ decode 0x00000021 = .ok .aesdecb ∧
  decode 0x00000030 = .ok .pad ∧ decode 0x00000031 = .ok .unpad ∧
  decode 0x00000000 = .error .unassignedOp ∧ decode 0x00000032 = .error .unassignedOp ∧
  decode 0x00000102 = .error .reservedBits

/-! ### The step and the host port -/

/-- R71, R52, R60: when the next transaction writes to `CMD` a word that decodes to a command, the step is that command,
on the state with the transaction served. -/
def Obligations.StepRunsTheDecodedCommand : Prop :=
  ∀ (s : State) (w : Word) (i : Instr) (rest : List Txn),
    s.pending = .wr .reg 0x00 (.word w) :: rest → decode w = .ok i →
    step s = exec i { s with pending := rest }

/-- R215: the engine is idle whenever no command runs and keeps all state while idle (the queue of transactions is the
model's own, log 1). -/
def Obligations.IdleEngineKeepsAllState : Prop :=
  ∀ s : State, s.pending = [] → step s = .next s

/-- R204, R74: in IDLE or DONE a word that is no command raises `E_ILLEGAL_CMD` and nothing else happens; in ERROR or
FATAL it is ignored. -/
def Obligations.IllegalWordRaisesIllegalCmdOrIsIgnored : Prop :=
  ∀ (s : State) (w : Word) (rest : List Txn),
    (∀ i, w ≠ encode i) → s.pending = .wr .reg 0x00 (.word w) :: rest →
    ((s.stage = .idle ∨ s.stage = .done) →
      step s = .next { s with pending := rest, stage := .error, err := .illegalCmd, outlen := 0 }) ∧
    ((s.stage = .error ∨ s.stage = .fatal) → step s = .next { s with pending := rest })

/-- R52, R29: the host's writes to `PWLEN` and `INLEN` store any 32-bit value in every `STATE`, and change nothing else. -/
def Obligations.LengthRegistersStoreAnyValueInEveryState : Prop :=
  ∀ (s : State) (v : Word) (rest : List Txn),
    (s.pending = .wr .reg 0x0C (.word v) :: rest → step s = .next { s with pending := rest, pwlen := v }) ∧
    (s.pending = .wr .reg 0x10 (.word v) :: rest → step s = .next { s with pending := rest, inlen := v })

/-- R52: the host's writes of one byte to `PW` and `IN`, in every `STATE`: that byte is the one written, every other byte
and everything else is as before. -/
def Obligations.BufferWritesChangeOneByteInEveryState : Prop :=
  ∀ (s : State) (off : Nat) (b : Byte) (rest : List Txn), s.pwBuf.wf = true → s.inBuf.wf = true →
    (s.pending = .wr .pw off (.byte b) :: rest → off < s.params.pwMax →
      ∃ m : Memory, (∀ a, m.read a = if a = off then b else s.pwBuf.read a) ∧
        step s = .next { s with pending := rest, pwBuf := m }) ∧
    (s.pending = .wr .inp off (.byte b) :: rest → off < s.params.bufMax →
      ∃ m : Memory, (∀ a, m.read a = if a = off then b else s.inBuf.read a) ∧
        step s = .next { s with pending := rest, inBuf := m })

/-- R52, R53, R54: every read returns the value of its register or byte, in every `STATE`, and changes nothing of the
engine; `OUT` is readable up to `BUF_MAX` and `IVR` up to 16 whatever `OUTLEN` and `IVV` say. -/
def Obligations.ReadsReturnTheValueAndChangeNothing : Prop :=
  ∀ (s : State) (rest : List Txn) (off : Nat),
    (s.pending = .rd .reg 0x04 .word :: rest →
      step s = .next { s with pending := rest, returned := s.returned ++ [.word (statusWord s)] }) ∧
    (s.pending = .rd .reg 0x08 .word :: rest →
      step s = .next { s with pending := rest, returned := s.returned ++ [.word (errWord s)] }) ∧
    (s.pending = .rd .reg 0x0C .word :: rest →
      step s = .next { s with pending := rest, returned := s.returned ++ [.word s.pwlen] }) ∧
    (s.pending = .rd .reg 0x10 .word :: rest →
      step s = .next { s with pending := rest, returned := s.returned ++ [.word s.inlen] }) ∧
    (s.pending = .rd .reg 0x14 .word :: rest →
      step s = .next { s with pending := rest, returned := s.returned ++ [.word s.outlen] }) ∧
    (s.pending = .rd .out off .byte :: rest → off < s.params.bufMax →
      step s = .next { s with pending := rest, returned := s.returned ++ [.byte (s.outBuf.read off)] }) ∧
    (∀ h : off < 16, s.pending = .rd .ivr off .byte :: rest →
      step s = .next { s with pending := rest, returned := s.returned ++ [.byte s.iv[off]] })

/-- R27, R28: the fields of `STATUS` and of `ERR` as the host reads them, the reserved bits zero. -/
def Obligations.StatusAndErrRegisterLayout : Prop :=
  ∀ s : State,
    (statusWord s).extractLsb' 0 2 =
      (match s.stage with | .idle => 0 | .done => 1 | .error => 2 | .fatal => 3) ∧
    (statusWord s).extractLsb' 2 2 = 0 ∧
    (statusWord s).getLsbD 4 = s.keyv ∧ (statusWord s).getLsbD 5 = s.ivv ∧
    (statusWord s).extractLsb' 6 26 = 0 ∧
    (errWord s).extractLsb' 0 8 =
      (match s.err with
        | .none => 0x00 | .formatShort => 0x01 | .formatAlign => 0x02 | .integrity => 0x03 | .fatalPrim => 0x04
        | .fatalKey => 0x05 | .fatalRng => 0x06 | .illegalCmd => 0x10 | .length => 0x11) ∧
    (errWord s).extractLsb' 8 24 = 0

/-- R55, R52: a step refuses exactly the transactions that have no meaning. -/
def Obligations.RefusedExactlyWhenTheAccessHasNoMeaning : Prop :=
  ∀ (s : State) (t : Txn) (rest : List Txn), s.pending = t :: rest →
    ((∃ r, step s = .refused r) ↔ t.wf s.params = false)

/-- R230, R231: the reset event, in every `STATE`, gives the reset state of R35; the host's side and the oracles are not
the engine's and stay (log 16, DEDUCED). -/
def Obligations.ResetEventGivesTheResetState : Prop :=
  ∀ (s : State) (rest : List Txn), s.pending = .reset :: rest →
    step s = .next { State.resetWith s.params with
      pending := rest, returned := s.returned, primFaults := s.primFaults, primAsked := s.primAsked,
      rngs := s.rngs, rngAsked := s.rngAsked }

/-- R35: the reset value of every state element, for every value of the parameters. -/
def Obligations.ResetValuesOfTheEngine : Prop :=
  ∀ p : Params,
    let s := State.resetWith p
    s.stage = .idle ∧ s.keyv = false ∧ s.ivv = false ∧ s.err = .none ∧ s.pwlen = 0 ∧ s.inlen = 0 ∧ s.outlen = 0 ∧
    (∀ k, (h : k < 32) → s.key[k] = 0) ∧ (∀ k, (h : k < 16) → s.iv[k] = 0) ∧
    (∀ a, s.pwBuf.read a = 0) ∧ (∀ a, s.inBuf.read a = 0) ∧ (∀ a, s.outBuf.read a = 0)

/-! ### Acceptance -/

/-- R71, R211: in FATAL every command is ignored with no state change, and in ERROR every command but `CLEAR`. -/
def Obligations.FatalAndErrorIgnoreCommands : Prop :=
  ∀ (s : State) (i : Instr),
    (s.stage = .fatal → exec i s = .next s) ∧ (s.stage = .error → i ≠ .clear → exec i s = .next s)

/-- R36 (6), R211: once `STATE` is FATAL, no host transaction other than reset changes `STATE`, `ERR`, `OUTLEN`, `KEY`,
`IV`, `OUT` or the flags, however many are served. -/
def Obligations.FatalAbsorbsEveryRunWithoutReset : Prop :=
  ∀ (n : Nat) (s t : State), s.stage = .fatal → Txn.reset ∉ s.pending → core.run n s = .next t →
    t.stage = .fatal ∧ t.err = s.err ∧ t.outlen = s.outlen ∧ t.key = s.key ∧ t.iv = s.iv ∧ t.outBuf = s.outBuf ∧
    t.keyv = s.keyv ∧ t.ivv = s.ivv

/-- R28, R71, R211: in ERROR, `ERR` keeps the first error and nothing of the engine but the host's own buffers and lengths
changes, until a `CLEAR` or a reset is served. -/
def Obligations.ErrorKeepsTheFirstErrorUntilClearOrReset : Prop :=
  ∀ (n : Nat) (s t : State), s.stage = .error → Txn.reset ∉ s.pending → Script.cmd .clear ∉ s.pending →
    core.run n s = .next t →
    t.stage = .error ∧ t.err = s.err ∧ t.outlen = s.outlen ∧ t.key = s.key ∧ t.iv = s.iv ∧ t.outBuf = s.outBuf ∧
    t.keyv = s.keyv ∧ t.ivv = s.ivv

/-! ### Errors -/

/-- R210: whatever the command, an accepted command that ends in ERROR or FATAL has done its error entry and nothing else:
`OUTLEN` 0, the code of that class, the flags cleared on FATAL only, every buffer, `KEY`, `IV` and both lengths kept. -/
def Obligations.FailedCommandDoesItsErrorEntryOnly : Prop :=
  ∀ (s t : State) (i : Instr), (s.stage = .idle ∨ s.stage = .done) → exec i s = .next t →
    (t.stage = .error ∨ t.stage = .fatal) →
    t.outlen = 0 ∧ t.err.cls = some t.stage ∧ t.key = s.key ∧ t.iv = s.iv ∧ t.outBuf = s.outBuf ∧
    t.inBuf = s.inBuf ∧ t.pwBuf = s.pwBuf ∧ t.pwlen = s.pwlen ∧ t.inlen = s.inlen ∧
    (t.stage = .error → t.keyv = s.keyv ∧ t.ivv = s.ivv) ∧ (t.stage = .fatal → t.keyv = false ∧ t.ivv = false)

/-- R205, R208: `E_LENGTH` before any other check, and no oracle asked, for every command that has lengths to check. -/
def Obligations.OversizedLengthsRaiseLengthError : Prop :=
  ∀ s : State, s.ready = true →
    let failed : Host.Outcome State Fault Refusal := .next { s with stage := .error, err := .length, outlen := 0 }
    (s.pwlen.toNat > s.params.pwMax → exec .derive s = failed) ∧
    ((s.pwlen.toNat > s.params.pwMax ∨ s.inlen.toNat > s.params.bufMax) → exec .hmac s = failed) ∧
    (s.inlen.toNat > s.params.bufMax →
      exec .sha1 s = failed ∧ exec .ldkey s = failed ∧ exec .decrypt s = failed ∧ exec .unpad s = failed) ∧
    ((s.inlen.toNat > s.params.bufMax ∨ 16 + 16 * (s.inlen.toNat / 16 + 1) > s.params.bufMax) →
      exec .encrypt s = failed) ∧
    ((s.inlen.toNat > s.params.bufMax ∨ 16 * (s.inlen.toNat / 16 + 1) > s.params.bufMax) → exec .pad s = failed) ∧
    (s.inlen.toNat ≠ 16 → exec .aesencb s = failed ∧ exec .aesdecb s = failed)

/-- R202, R188 (1): the format errors are decided from `INLEN` alone, whatever the key, and before any oracle is asked. -/
def Obligations.MalformedLengthsRaiseFormatErrors : Prop :=
  ∀ s : State, s.ready = true → s.inlen.toNat ≤ s.params.bufMax →
    (s.inlen.toNat < 16 →
      exec .decrypt s = .next { s with stage := .error, err := .formatShort, outlen := 0 }) ∧
    (16 ≤ s.inlen.toNat → (s.inlen.toNat = 16 ∨ (s.inlen.toNat - 16) % 16 ≠ 0) →
      exec .decrypt s = .next { s with stage := .error, err := .formatAlign, outlen := 0 }) ∧
    ((s.inlen.toNat = 0 ∨ s.inlen.toNat % 16 ≠ 0) →
      exec .unpad s = .next { s with stage := .error, err := .formatAlign, outlen := 0 })

/-- R206, R208: no valid key, or `LDKEY` with a length other than 32, is fatal; no oracle is asked. -/
def Obligations.MissingOrBadKeyIsFatal : Prop :=
  ∀ s : State, s.ready = true →
    let failed : Host.Outcome State Fault Refusal :=
      .next { s with stage := .fatal, err := .fatalKey, outlen := 0, keyv := false, ivv := false }
    (s.inlen.toNat ≤ s.params.bufMax → s.inlen.toNat ≠ 32 → exec .ldkey s = failed) ∧
    (s.keyv = false →
      (s.inlen.toNat = 16 → exec .aesencb s = failed ∧ exec .aesdecb s = failed) ∧
      (16 + 16 * (s.inlen.toNat / 16 + 1) ≤ s.params.bufMax → exec .encrypt s = failed) ∧
      (s.inlen.toNat ≤ s.params.bufMax → 32 ≤ s.inlen.toNat → s.inlen.toNat % 16 = 0 → exec .decrypt s = failed))

/-- R207, R208: a command whose earlier checks passed asks `prim_fault` once, and the answer true is fatal. -/
def Obligations.PrimitiveFaultIsFatal : Prop :=
  ∀ s : State, s.ready = true → primFaultAnswer s = true →
    let failed : Host.Outcome State Fault Refusal :=
      .next { s with stage := .fatal, err := .fatalPrim, outlen := 0, keyv := false, ivv := false,
                     primFaults := s.primFaults.tail, primAsked := s.primAsked + 1 }
    (s.pwlen.toNat ≤ s.params.pwMax → exec .derive s = failed) ∧
    (s.pwlen.toNat ≤ s.params.pwMax → s.inlen.toNat ≤ s.params.bufMax → exec .hmac s = failed) ∧
    (s.inlen.toNat ≤ s.params.bufMax → exec .sha1 s = failed) ∧
    (s.keyv = true →
      (s.inlen.toNat = 16 → exec .aesencb s = failed ∧ exec .aesdecb s = failed) ∧
      (16 + 16 * (s.inlen.toNat / 16 + 1) ≤ s.params.bufMax → exec .encrypt s = failed) ∧
      (s.inlen.toNat ≤ s.params.bufMax → 32 ≤ s.inlen.toNat → s.inlen.toNat % 16 = 0 → exec .decrypt s = failed))

/-- R207, R184, R208: `rng` is asked after `prim_fault`, and its failure is fatal. -/
def Obligations.FailingRandomSourceIsFatal : Prop :=
  ∀ s : State, s.ready = true → 16 + 16 * (s.inlen.toNat / 16 + 1) ≤ s.params.bufMax → s.keyv = true →
    primFaultAnswer s = false → rngAnswer s = .fail →
    exec .encrypt s = .next { s with
      stage := .fatal, err := .fatalRng, outlen := 0, keyv := false, ivv := false,
      primFaults := s.primFaults.tail, primAsked := s.primAsked + 1,
      rngs := s.rngs.tail, rngAsked := s.rngAsked + 1 }

/-- R203, R161: malformed padding is `E_INTEGRITY` for `UNPAD`: the last byte `p` is not a pad length, or some of the last
`p` bytes differ from it. -/
def Obligations.MalformedPaddingFailsUnpad : Prop :=
  ∀ s : State, s.ready = true → s.inlen.toNat ≤ s.params.bufMax → 0 < s.inlen.toNat → s.inlen.toNat % 16 = 0 →
    let p := (s.inBuf.read (s.inlen.toNat - 1)).toNat
    (p = 0 ∨ 16 < p ∨ ∃ k, 1 ≤ k ∧ k ≤ p ∧ (s.inBuf.read (s.inlen.toNat - k)).toNat ≠ p) →
    exec .unpad s = .next { s with stage := .error, err := .integrity, outlen := 0 }

/-- R203, R186: a blob whose decrypted data has malformed padding is `E_INTEGRITY` for `DECRYPT`; `IV` is not updated and
no byte of the decrypted data reaches `OUT`. -/
def Obligations.MalformedPaddingFailsDecrypt : Prop :=
  ∀ s : State, s.ready = true → s.inlen.toNat ≤ s.params.bufMax → 32 ≤ s.inlen.toNat → s.inlen.toNat % 16 = 0 →
    s.keyv = true → primFaultAnswer s = false →
    unpadBytes (cbcDec (keyExpansion s.key.toList) (memRead s.inBuf 0 16) (memRead s.inBuf 16 (s.inlen.toNat - 16))) = none →
    exec .decrypt s = .next { s with
      stage := .error, err := .integrity, outlen := 0,
      primFaults := s.primFaults.tail, primAsked := s.primAsked + 1 }

/-! ### Commands that complete: result and frame -/

/-- R101: `SHA1` completes with the digest of `IN[0..INLEN)` in `OUT[0..20)`. -/
def Obligations.Sha1WritesTheDigest : Prop :=
  ∀ s : State, s.ready = true → s.outBuf.wf = true → s.inlen.toNat ≤ s.params.bufMax → primFaultAnswer s = false →
    ∃ m : Memory, HoldsResult s.outBuf m (sha1 (memRead s.inBuf 0 s.inlen.toNat)) ∧
      exec .sha1 s = .next { s with
        outBuf := m, outlen := 20, stage := .done, err := .none,
        primFaults := s.primFaults.tail, primAsked := s.primAsked + 1 }

/-- R114: `HMAC` completes with the HMAC of `IN[0..INLEN)` under the key `PW[0..PWLEN)` in `OUT[0..20)`. -/
def Obligations.HmacWritesTheMac : Prop :=
  ∀ s : State, s.ready = true → s.outBuf.wf = true → s.pwlen.toNat ≤ s.params.pwMax →
    s.inlen.toNat ≤ s.params.bufMax → primFaultAnswer s = false →
    ∃ m : Memory,
      HoldsResult s.outBuf m (hmac (memRead s.pwBuf 0 s.pwlen.toNat) (memRead s.inBuf 0 s.inlen.toNat)) ∧
      exec .hmac s = .next { s with
        outBuf := m, outlen := 20, stage := .done, err := .none,
        primFaults := s.primFaults.tail, primAsked := s.primAsked + 1 }

/-- R121: `DERIVE` completes with the derived key whole in `KEY` and copied to `OUT[0..32)`, `KEYV` set. -/
def Obligations.DeriveLoadsAndCopiesTheKey : Prop :=
  ∀ s : State, s.ready = true → s.outBuf.wf = true → s.pwlen.toNat ≤ s.params.pwMax → primFaultAnswer s = false →
    ∃ (m : Memory) (key : Vector Byte 32),
      key.toList = deriveKey (memRead s.pwBuf 0 s.pwlen.toNat) ∧ HoldsResult s.outBuf m key.toList ∧
      exec .derive s = .next { s with
        key := key, keyv := true, outBuf := m, outlen := 32, stage := .done, err := .none,
        primFaults := s.primFaults.tail, primAsked := s.primAsked + 1 }

/-- R152: `LDKEY` completes with `IN[0..32)` in `KEY`, `KEYV` set and no result bytes; it asks no oracle. -/
def Obligations.LdkeyLoadsTheKey : Prop :=
  ∀ s : State, s.ready = true → s.inlen.toNat = 32 → 32 ≤ s.params.bufMax →
    ∃ key : Vector Byte 32, key.toList = memRead s.inBuf 0 32 ∧
      exec .ldkey s = .next { s with key := key, keyv := true, outlen := 0, stage := .done, err := .none }

/-- R153, R154: the block commands complete with one raw block in `OUT[0..16)`. -/
def Obligations.BlockCommandsWriteOneBlock : Prop :=
  ∀ s : State, s.ready = true → s.outBuf.wf = true → s.inlen.toNat = 16 → s.keyv = true → primFaultAnswer s = false →
    (∃ m : Memory, HoldsResult s.outBuf m (cipher (keyExpansion s.key.toList) (memRead s.inBuf 0 16)) ∧
      exec .aesencb s = .next { s with
        outBuf := m, outlen := 16, stage := .done, err := .none,
        primFaults := s.primFaults.tail, primAsked := s.primAsked + 1 }) ∧
    (∃ m : Memory, HoldsResult s.outBuf m (invCipher (keyExpansion s.key.toList) (memRead s.inBuf 0 16)) ∧
      exec .aesdecb s = .next { s with
        outBuf := m, outlen := 16, stage := .done, err := .none,
        primFaults := s.primFaults.tail, primAsked := s.primAsked + 1 })

/-- R184, R181: `ENCRYPT` completes with the blob of `IN[0..INLEN)` under the bytes `rng` answers in `OUT`, those bytes in
`IV` and in `OUT[0..16)`, `IVV` set, and `OUTLEN` by the length law. -/
def Obligations.EncryptWritesTheBlob : Prop :=
  ∀ (s : State) (d : Vector Byte 16), s.ready = true → s.outBuf.wf = true →
    16 + 16 * (s.inlen.toNat / 16 + 1) ≤ s.params.bufMax → s.keyv = true →
    primFaultAnswer s = false → rngAnswer s = .bytes d →
    ∃ m : Memory,
      HoldsResult s.outBuf m (encryptFn (memRead s.inBuf 0 s.inlen.toNat) s.key.toList d.toList) ∧
      (∀ k, (h : k < 16) → m.read k = d[k]) ∧
      exec .encrypt s = .next { s with
        iv := d, ivv := true, outBuf := m, outlen := BitVec.ofNat 32 (16 + 16 * (s.inlen.toNat / 16 + 1)),
        stage := .done, err := .none, primFaults := s.primFaults.tail, primAsked := s.primAsked + 1,
        rngs := s.rngs.tail, rngAsked := s.rngAsked + 1 }

/-- R186: `DECRYPT` of a blob that `decrypt_fn` accepts completes with the plaintext in `OUT`, the blob's first 16 bytes in
`IV`, and `IVV` set; `rng` is not asked. -/
def Obligations.DecryptWritesThePlaintext : Prop :=
  ∀ (s : State) (r : Bytes), s.ready = true → s.outBuf.wf = true → s.inlen.toNat ≤ s.params.bufMax → s.keyv = true →
    primFaultAnswer s = false → decryptFn (memRead s.inBuf 0 s.inlen.toNat) s.key.toList = .ok r →
    ∃ (m : Memory) (iv : Vector Byte 16), iv.toList = memRead s.inBuf 0 16 ∧ HoldsResult s.outBuf m r ∧
      s.inlen.toNat - 32 ≤ r.length ∧ r.length ≤ s.inlen.toNat - 17 ∧
      exec .decrypt s = .next { s with
        iv := iv, ivv := true, outBuf := m, outlen := BitVec.ofNat 32 r.length, stage := .done, err := .none,
        primFaults := s.primFaults.tail, primAsked := s.primAsked + 1 }

/-- R164, R160: `PAD` completes with the input and `p` bytes of value `p` behind it, `p` = 16 - (`INLEN` mod 16); it asks no
oracle. -/
def Obligations.PadWritesInputAndPadding : Prop :=
  ∀ s : State, s.ready = true → s.outBuf.wf = true → 16 * (s.inlen.toNat / 16 + 1) ≤ s.params.bufMax →
    let p := 16 - s.inlen.toNat % 16
    ∃ m : Memory,
      HoldsResult s.outBuf m (memRead s.inBuf 0 s.inlen.toNat ++ List.replicate p (BitVec.ofNat 8 p)) ∧
      exec .pad s = .next { s with
        outBuf := m, outlen := BitVec.ofNat 32 (16 * (s.inlen.toNat / 16 + 1)), stage := .done, err := .none }

/-- R165, R161: `UNPAD` of an input that ends in `p` bytes of value `p`, `p` = 1 to 16, completes with the bytes before
them; an empty result is a success; it asks no oracle. -/
def Obligations.UnpadWritesTheDataBeforeThePadding : Prop :=
  ∀ (s : State) (r : Bytes) (p : Nat), s.ready = true → s.outBuf.wf = true → s.inlen.toNat ≤ s.params.bufMax →
    s.inlen.toNat % 16 = 0 → 1 ≤ p → p ≤ 16 →
    memRead s.inBuf 0 s.inlen.toNat = r ++ List.replicate p (BitVec.ofNat 8 p) →
    ∃ m : Memory, HoldsResult s.outBuf m r ∧
      exec .unpad s = .next { s with
        outBuf := m, outlen := BitVec.ofNat 32 r.length, stage := .done, err := .none }

/-- R190, R35: in every `STATE` but FATAL, `CLEAR` completes in the reset state; in FATAL it is ignored; it asks no oracle.
The host's side and the oracles are not the engine's and stay (log 16, DEDUCED). -/
def Obligations.ClearGivesTheResetState : Prop :=
  ∀ s : State,
    (s.stage ≠ .fatal →
      exec .clear s = .next { State.resetWith s.params with
        pending := s.pending, returned := s.returned, primFaults := s.primFaults, primAsked := s.primAsked,
        rngs := s.rngs, rngAsked := s.rngAsked }) ∧
    (s.stage = .fatal → exec .clear s = .next s)

/-! ### The whole machine -/

/-- R29, R31: no command but `CLEAR` changes `PWLEN`, `INLEN`, `PW` or `IN`; none changes the parameters or the host's
side. -/
def Obligations.OnlyClearWritesTheHostsBuffersAndLengths : Prop :=
  ∀ (s t : State) (i : Instr), exec i s = .next t →
    t.params = s.params ∧ t.pending = s.pending ∧ t.returned = s.returned ∧
    (i ≠ .clear → t.pwlen = s.pwlen ∧ t.inlen = s.inlen ∧ t.pwBuf = s.pwBuf ∧ t.inBuf = s.inBuf)

/-- R20, R21, R22, R23: which commands can write `KEY`, set `KEYV`, write `IV` and set `IVV`. -/
def Obligations.KeyAndIvAreWrittenByTheirCommandsOnly : Prop :=
  ∀ (s t : State) (i : Instr), exec i s = .next t →
    (i ≠ .derive → i ≠ .ldkey → i ≠ .clear → t.key = s.key) ∧
    (i ≠ .derive → i ≠ .ldkey → s.keyv = false → t.keyv = false) ∧
    (i ≠ .encrypt → i ≠ .decrypt → i ≠ .clear → t.iv = s.iv) ∧
    (i ≠ .encrypt → i ≠ .decrypt → s.ivv = false → t.ivv = false)

/-- R31, R58: a command reads only the declared prefixes of `PW` and `IN`: two states that differ in the bytes beyond them
only end alike. -/
def Obligations.CommandsReadOnlyTheDeclaredPrefixes : Prop :=
  ∀ (s t : State) (i : Instr) (pw inp : Memory), i ≠ .clear →
    (∀ a, a < s.pwlen.toNat → pw.read a = s.pwBuf.read a) → (∀ a, a < s.inlen.toNat → inp.read a = s.inBuf.read a) →
    exec i s = .next t →
    exec i { s with pwBuf := pw, inBuf := inp } = .next { t with pwBuf := pw, inBuf := inp }

/-- R214, R50, R21: `KEY`, `PW` and `IN` have no read path: what a step that serves a read returns, and whether it is
refused, does not depend on them. -/
def Obligations.KeyAndPasswordHaveNoReadPath : Prop :=
  ∀ (s : State) (space : Space) (off : Nat) (w : Width) (rest : List Txn) (key : Vector Byte 32) (pw inp : Memory),
    s.pending = .rd space off w :: rest →
    match step s with
    | .next t => step { s with key := key, pwBuf := pw, inBuf := inp } =
        .next { t with key := key, pwBuf := pw, inBuf := inp }
    | .refused r => step { s with key := key, pwBuf := pw, inBuf := inp } = .refused r
    | .fault _ => False

/-- R122 (1), R234: `DERIVE` is a function of the password bytes alone, whatever else the two states hold. -/
def Obligations.DeriveDependsOnThePasswordAlone : Prop :=
  ∀ s s' t t' : State, s.ready = true → s'.ready = true → s.outBuf.wf = true → s'.outBuf.wf = true →
    s.pwlen.toNat ≤ s.params.pwMax → s'.pwlen.toNat ≤ s'.params.pwMax →
    primFaultAnswer s = false → primFaultAnswer s' = false →
    memRead s.pwBuf 0 s.pwlen.toNat = memRead s'.pwBuf 0 s'.pwlen.toNat →
    exec .derive s = .next t → exec .derive s' = .next t' →
    t.key = t'.key ∧ t.outlen = 32 ∧ t'.outlen = 32 ∧ ∀ a, a < 32 → t.outBuf.read a = t'.outBuf.read a

/-- R36, R9, R31: every step keeps the invariant of the reachable states. -/
def Obligations.StepKeepsTheInvariant : Prop :=
  ∀ s t : State, s.Inv → step s = .next t → t.Inv

/-- R36, R35: the reset state meets the invariant, for all parameters that R9 admits; so does `State.reset`, whose two
parameters are the model's choice (log 3). -/
def Obligations.ResetMeetsTheInvariant : Prop :=
  (∀ p : Params, p.wf = true → (State.resetWith p).Inv) ∧ State.reset.Inv

/-! ### The SHA-1 core, HMAC and PBKDF2 -/

/-- R93: the message schedule: 80 words, the first sixteen the block's big-endian words, the rest by the recurrence. -/
def Obligations.Sha1ScheduleRecurrence : Prop :=
  ∀ b : Bytes, b.length = 64 →
    let w := fun t => (sha1Sched b).getD t 0
    (sha1Sched b).length = 80 ∧
    (∀ t, t < 16 → w t = b.getD (4 * t) 0 ++ b.getD (4 * t + 1) 0 ++ b.getD (4 * t + 2) 0 ++ b.getD (4 * t + 3) 0) ∧
    (∀ t, 16 ≤ t → t < 80 → w t = (w (t - 3) ^^^ w (t - 8) ^^^ w (t - 14) ^^^ w (t - 16)).rotateLeft 1)

/-- R96: the padded message is the message, one byte 0x80, the fewest zero bytes, and the bit length as a 64-bit big-endian
number; it fills `(L + 8) div 64 + 1` blocks. -/
def Obligations.Sha1MessagePadding : Prop :=
  ∀ m : Bytes, m.length < 2 ^ 61 →
    (sha1PadMsg m).length = 64 * ((m.length + 8) / 64 + 1) ∧
    ∃ (z : Nat) (l : Bytes), z < 64 ∧ l.length = 8 ∧
      l.foldl (fun n b => 256 * n + b.toNat) 0 = 8 * m.length ∧
      sha1PadMsg m = m ++ [0x80] ++ List.replicate z 0x00 ++ l

/-- R111, R112 (2): a key and the same key with zero bytes behind it, up to 64 bytes in all, give the same HMAC; so do a
key longer than 64 bytes and its digest. -/
def Obligations.HmacKeysWithTheSameBlockAgree : Prop :=
  (∀ (k text : Bytes) (n : Nat), k.length + n ≤ 64 → hmac (k ++ List.replicate n 0) text = hmac k text) ∧
  (∀ k text : Bytes, 64 < k.length → hmac k text = hmac (sha1 k) text)

/-- The chain `U_1, U_2, ...` of R117, counted from 0. -/
def prfChain (p salt : Bytes) (i : Nat) : Nat → Bytes
  | 0 => hmac p (salt ++ pbkdf2Int i)
  | j + 1 => hmac p (prfChain p salt i j)

/-- R117: an output block of PBKDF2 is `U_1 XOR U_2 XOR ... XOR U_c`, the password always the key argument. -/
def Obligations.Pbkdf2BlockIsTheXorOfTheChain : Prop :=
  ∀ (p salt : Bytes) (c i : Nat), 1 ≤ c →
    pbkdf2F p salt c i =
      (List.range (c - 1)).foldl (fun t j => xorBytes t (prfChain p salt i (j + 1))) (prfChain p salt i 0)

/-- R119, R7: the derived key is the first block and the first 12 bytes of the second, for the salt "12345678" and 10000
iterations; it is 32 bytes long. -/
def Obligations.DerivedKeyIsTwoBlocksTruncated : Prop :=
  ∀ p : Bytes,
    deriveKey p = pbkdf2F p [0x31, 0x32, 0x33, 0x34, 0x35, 0x36, 0x37, 0x38] 10000 1 ++
      (pbkdf2F p [0x31, 0x32, 0x33, 0x34, 0x35, 0x36, 0x37, 0x38] 10000 2).take 12 ∧
    (deriveKey p).length = 32

/-! ### The AES-256 core -/

/-- R137: the key schedule: 60 words, the first eight the key's big-endian words, the rest by the recurrence. -/
def Obligations.KeyScheduleRecurrence : Prop :=
  ∀ key : Bytes, key.length = 32 →
    let rk := fun i => (keyExpansion key).getD i 0
    (keyExpansion key).length = 60 ∧
    (∀ i, i < 8 →
      rk i = key.getD (4 * i) 0 ++ key.getD (4 * i + 1) 0 ++ key.getD (4 * i + 2) 0 ++ key.getD (4 * i + 3) 0) ∧
    (∀ i, 8 ≤ i → i < 60 →
      rk i = rk (i - 8) ^^^
        (if i % 8 = 0 then subWord (rotWord (rk (i - 1))) ^^^ rcon (i / 8)
         else if i % 8 = 4 then subWord (rk (i - 1)) else rk (i - 1)))

/-- R134: `RotWord` and `SubWord` on the four bytes of a word, most significant first. -/
def Obligations.WordHelpersActOnBytes : Prop :=
  ∀ a0 a1 a2 a3 : Byte,
    rotWord (a0 ++ a1 ++ a2 ++ a3) = a1 ++ a2 ++ a3 ++ a0 ∧
    subWord (a0 ++ a1 ++ a2 ++ a3) = sbox a0 ++ sbox a1 ++ sbox a2 ++ sbox a3

/-- R142, R131: `InvMixColumns` undoes `MixColumns` on every column, and the other way round. -/
def Obligations.MixColumnsAndItsInverseCancel : Prop :=
  ∀ s : Bytes, s.length = 16 → invMixColumns (mixColumns s) = s ∧ mixColumns (invMixColumns s) = s

/-- R148: for every key, `Cipher` and `InvCipher` are inverse permutations of the 16-byte blocks. -/
def Obligations.CipherAndInvCipherAreInversePermutations : Prop :=
  ∀ key x : Bytes, key.length = 32 → x.length = 16 →
    (cipher (keyExpansion key) x).length = 16 ∧ (invCipher (keyExpansion key) x).length = 16 ∧
    invCipher (keyExpansion key) (cipher (keyExpansion key) x) = x ∧
    cipher (keyExpansion key) (invCipher (keyExpansion key) x) = x

/-! ### Padding, CBC and the two contracts -/

/-- R160, R162 (1), (2): `unpad` undoes `pad`, and `pad` adds 1 to 16 bytes to reach the next multiple of 16. -/
def Obligations.UnpadUndoesPad : Prop :=
  ∀ m : Bytes, unpadBytes (padBytes m) = some m ∧ (padBytes m).length = 16 * (m.length / 16 + 1) ∧
    m.length < (padBytes m).length ∧ (padBytes m).length ≤ m.length + 16

/-- R161: `unpad` accepts exactly the strings that end in `p` bytes of value `p`, `p` = 1 to 16, and returns what stands
before them. -/
def Obligations.UnpadAcceptsExactlyWellFormedPadding : Prop :=
  ∀ x r : Bytes, x ≠ [] → x.length % 16 = 0 →
    (unpadBytes x = some r ↔ ∃ p, 1 ≤ p ∧ p ≤ 16 ∧ x = r ++ List.replicate p (BitVec.ofNat 8 p))

/-- R169: CBC decryption undoes CBC encryption, for every key, every IV and every whole number of blocks; the length is
kept (R168). -/
def Obligations.CbcDecryptionUndoesEncryption : Prop :=
  ∀ key iv m : Bytes, key.length = 32 → iv.length = 16 → m.length % 16 = 0 →
    (cbcEnc (keyExpansion key) iv m).length = m.length ∧
    cbcDec (keyExpansion key) iv (cbcEnc (keyExpansion key) iv m) = m

/-- R170: a change of the IV flips the same bit positions of the first decrypted block and nothing else. -/
def Obligations.IvChangeFlipsTheFirstBlockOnly : Prop :=
  ∀ (rk : List Word) (iv iv' y : Bytes), iv.length = 16 → iv'.length = 16 → y.length % 16 = 0 →
    (cbcDec rk iv' y).take 16 = xorBytes ((cbcDec rk iv y).take 16) (xorBytes iv iv') ∧
    (cbcDec rk iv' y).drop 16 = (cbcDec rk iv y).drop 16

/-- R170: a change of one ciphertext block changes its own decrypted block, flips the same bit positions of the next one,
and changes no other. -/
def Obligations.BlockChangeReachesTheNextBlockOnly : Prop :=
  ∀ (rk : List Word) (iv pre y y' post : Bytes),
    iv.length = 16 → pre.length % 16 = 0 → y.length = 16 → y'.length = 16 → post.length % 16 = 0 →
    let m := cbcDec rk iv (pre ++ y ++ post)
    let m' := cbcDec rk iv (pre ++ y' ++ post)
    m'.take pre.length = m.take pre.length ∧
    (m'.drop (pre.length + 16)).take 16 = xorBytes ((m.drop (pre.length + 16)).take 16) (xorBytes y y') ∧
    m'.drop (pre.length + 32) = m.drop (pre.length + 32)

/-- R181, R182: the length law, and the framing: the blob begins with the IV. -/
def Obligations.BlobLengthLawAndFraming : Prop :=
  ∀ p key iv : Bytes, key.length = 32 → iv.length = 16 →
    (encryptFn p key iv).length = 16 + 16 * (p.length / 16 + 1) ∧ (encryptFn p key iv).take 16 = iv

/-- R187: `Decrypt(Encrypt(P, key), key) == P`, for every plaintext, key and IV. -/
def Obligations.DecryptFnUndoesEncryptFn : Prop :=
  ∀ p key iv : Bytes, key.length = 32 → iv.length = 16 → decryptFn (encryptFn p key iv) key = .ok p

/-- R187 at command level: if `ENCRYPT` succeeds and the host copies the result back to `IN`, `DECRYPT` with the same `KEY`
and no primitive fault succeeds with the plaintext in `OUT[0..OUTLEN)`, whatever else the host did between. -/
def Obligations.DecryptCommandUndoesEncryptCommand : Prop :=
  ∀ (s t u : State), s.params.wf = true → s.ready = true → s.outBuf.wf = true →
    exec .encrypt s = .next t → t.stage = .done →
    u.params = s.params → u.ready = true → u.outBuf.wf = true → u.key = s.key → u.keyv = true →
    primFaultAnswer u = false → u.inlen = t.outlen →
    (∀ a, a < t.outlen.toNat → u.inBuf.read a = t.outBuf.read a) →
    ∃ v, exec .decrypt u = .next v ∧ v.stage = .done ∧ v.err = .none ∧ v.outlen = s.inlen ∧ v.iv = t.iv ∧
      ∀ a, a < s.inlen.toNat → v.outBuf.read a = s.inBuf.read a
end

