-- ==== Sys2Proof/Laws/Bytes.lean ====
section
/-! SUPPORT. Lengths and elements of the byte-string operations. -/

namespace Sys2Proof.Machine

@[simp] theorem be32_length (w : Word) : (be32 w).length = 4 := rfl

@[simp] theorem be64_length (n : Nat) : (be64 n).length = 8 := by simp [be64]

@[simp] theorem xorBytes_length (a b : Bytes) : (xorBytes a b).length = min a.length b.length := by simp [xorBytes]

/-- `be32` is the inverse of `BE32` (00_scope R13). -/
theorem beWord_be32 (w : Word) : beWord (be32 w) = w := by
  apply BitVec.eq_of_getLsbD_eq
  intro i hi
  simp only [beWord, be32, List.getD_cons_zero, List.getD_cons_succ, BitVec.getLsbD_append, BitVec.getLsbD_extractLsb']
  have : i < 8 ∨ (8 ≤ i ∧ i < 16) ∨ (16 ≤ i ∧ i < 24) ∨ (24 ≤ i ∧ i < 32) := by omega
  rcases this with h | h | h | h <;> grind

/-- `XOR` with the same string twice gives the string back (00_scope R12). -/
theorem xorBytes_xorBytes_cancel {a b : Bytes} (h : a.length ≤ b.length) : xorBytes (xorBytes a b) b = a := by
  induction a generalizing b with
  | nil => simp [xorBytes]
  | cons x a ih =>
    cases b with
    | nil => simp at h
    | cons y b =>
      simp only [List.length_cons, Nat.add_le_add_iff_right] at h
      have := ih h
      simp only [xorBytes, List.zipWith_cons_cons] at this ⊢
      rw [this, BitVec.xor_assoc, BitVec.xor_self, BitVec.xor_zero]

/-- How many pieces there are. -/
@[simp] theorem pieces_length (n : Nat) (s : Bytes) : (pieces n s).length = s.length / n := by simp [pieces]

/-- A piece is a run of the string. -/
theorem pieces_getD {n k : Nat} {s : Bytes} (h : k < s.length / n) :
    (pieces n s).getD k [] = (s.drop (n * k)).take n := by
  simp [pieces, List.getD_eq_getElem?_getD, h]

/-- Every piece has `n` bytes. -/
theorem length_of_mem_pieces {n : Nat} {s p : Bytes} (h : p ∈ pieces n s) : p.length = n := by
  simp only [pieces, List.mem_map, List.mem_range] at h
  obtain ⟨k, hk, rfl⟩ := h
  have h1 : (k + 1) * n ≤ s.length := (Nat.le_div_iff_mul_le (Nat.pos_of_ne_zero fun h0 => by simp [h0] at hk)).1 hk
  have h2 : n * k + n ≤ s.length := by rw [Nat.add_mul, Nat.one_mul, Nat.mul_comm] at h1; exact h1
  simp only [List.length_take, List.length_drop]
  omega

/-- The pieces of a string with `n` bytes in front. -/
theorem pieces_append {n : Nat} (hn : 0 < n) {p s : Bytes} (hp : p.length = n) :
    pieces n (p ++ s) = p :: pieces n s := by
  have hlen : (p ++ s).length / n = s.length / n + 1 := by
    rw [List.length_append, hp, Nat.add_div_left _ hn]
  unfold pieces
  rw [hlen, List.range_succ_eq_map, List.map_cons, List.map_map]
  congr 1
  · simp [← hp]
  · apply List.map_congr_left
    intro k _
    have : n * (k + 1) = p.length + n * k := by rw [hp, Nat.mul_add, Nat.mul_one, Nat.add_comm]
    simp only [Function.comp_apply, Nat.succ_eq_add_one, this]
    rw [← List.drop_drop, List.drop_left]

/-- A string of `n` bytes or fewer in a register of `n` bytes: its bytes, then zeros. -/
theorem toReg_toList (n : Nat) (s : Bytes) : (toReg n s).toList = (List.range n).map fun i => s.getD i 0 := by
  simp [toReg, Vector.toList]

/-- A string of exactly `n` bytes goes into a register of `n` bytes unchanged. -/
theorem toReg_toList_of_length {n : Nat} {s : Bytes} (h : s.length = n) : (toReg n s).toList = s := by
  rw [toReg_toList]
  apply List.ext_getElem (by simp [h])
  intro k h1 h2
  simp [h2]

end Sys2Proof.Machine
end

