-- ==== Sys2Proof/Laws/Aes.lean ====
section
/-! SUPPORT. The S-box table against its algebraic definition, the inverse table, the field inverse (42_aes R131 to R133),
and the lengths of the AES core's results. -/

namespace Sys2Proof.Machine

/-- `a^254` is the multiplicative inverse of every non-zero `a`, and 0 for 0 (R131; log 12). -/
theorem gfInv_spec : ∀ a : Byte, gmul a (gfInv a) = if a = 0 then 0 else 1 := by decide +kernel

/-- The S-box table is its algebraic definition, which governs (R132). -/
theorem sbox_eq_sboxAlgebraic : ∀ a : Byte, sbox a = sboxAlgebraic a := by decide +kernel

/-- The inverse table undoes the S-box (R133). -/
theorem invSbox_sbox : ∀ a : Byte, invSbox (sbox a) = a := by decide +kernel

/-- The S-box undoes the inverse table: the S-box is a permutation of the bytes (R133). -/
theorem sbox_invSbox : ∀ a : Byte, sbox (invSbox a) = a := by decide +kernel

@[simp] theorem stateOf_length (f : Nat → Nat → Byte) : (stateOf f).length = 16 := by simp [stateOf]

/-- An element of a state given by its elements (R141). -/
theorem stateAt_stateOf (f : Nat → Nat → Byte) {r c : Nat} (hr : r < 4) (hc : c < 4) :
    stateAt (stateOf f) r c = f r c := by
  have h1 : (r + 4 * c) % 4 = r := by omega
  have h2 : (r + 4 * c) / 4 = c := by omega
  have h3 : r + 4 * c < 16 := by omega
  simp [stateAt, stateOf, List.getD_eq_getElem?_getD, h1, h2, h3]

/-- A 16-byte string is the state of its elements: loading and unloading a block (R141). -/
theorem stateOf_stateAt {s : Bytes} (h : s.length = 16) : stateOf (stateAt s) = s := by
  apply List.ext_getElem (by simp [h])
  intro k h1 h2
  have h3 : k % 4 + 4 * (k / 4) = k := by omega
  simp [stateOf, stateAt, h3, h2]

@[simp] theorem roundKey_length (rk : List Word) (k : Nat) : (roundKey rk k).length = 16 := rfl

theorem addRoundKey_length (rk : List Word) (k : Nat) {s : Bytes} (h : s.length = 16) :
    (addRoundKey rk k s).length = 16 := by simp [addRoundKey, h]

@[simp] theorem subBytes_length (s : Bytes) : (subBytes s).length = s.length := by simp [subBytes]
@[simp] theorem invSubBytes_length (s : Bytes) : (invSubBytes s).length = s.length := by simp [invSubBytes]
@[simp] theorem shiftRows_length (s : Bytes) : (shiftRows s).length = 16 := by simp [shiftRows]
@[simp] theorem invShiftRows_length (s : Bytes) : (invShiftRows s).length = 16 := by simp [invShiftRows]
@[simp] theorem mixColumns_length (s : Bytes) : (mixColumns s).length = 16 := rfl
@[simp] theorem invMixColumns_length (s : Bytes) : (invMixColumns s).length = 16 := rfl

/-- A cipher block is 16 bytes (R143). -/
@[simp] theorem cipher_length (rk : List Word) (b : Bytes) : (cipher rk b).length = 16 :=
  addRoundKey_length rk 14 (shiftRows_length _)

/-- A decrypted block is 16 bytes (R147). -/
@[simp] theorem invCipher_length (rk : List Word) (b : Bytes) : (invCipher rk b).length = 16 :=
  addRoundKey_length rk 0 (by rw [invSubBytes_length, invShiftRows_length])

end Sys2Proof.Machine
end

