-- ==== Sys2Proof/Laws/Hash.lean ====
section
/-! SUPPORT. Lengths of the SHA-1 core's and the KeyDeriver's results, and the zero count of the message padding as a
natural number. -/

namespace Sys2Proof.Machine

/-- A digest is 20 bytes (40_sha1 R99). -/
@[simp] theorem sha1_length (m : Bytes) : (sha1 m).length = 20 := rfl

/-- `z` is less than 64 and completes the message to 56 modulo 64 (R96). -/
theorem sha1ZeroCount_spec (len : Nat) : sha1ZeroCount len < 64 ∧ (len + 1 + sha1ZeroCount len) % 64 = 56 := by
  unfold sha1ZeroCount
  omega

/-- An HMAC is 20 bytes (41_hmac_pbkdf2 R111). -/
@[simp] theorem hmac_length (k text : Bytes) : (hmac k text).length = 20 := rfl

/-- `K0` is exactly 64 bytes (R111). -/
@[simp] theorem hmacK0_length (k : Bytes) : (hmacK0 k).length = 64 := by
  unfold hmacK0
  split
  · simp
  · simp; omega

theorem pbkdf2Iterate_length (p : Bytes) (n : Nat) (u t : Bytes) (ht : t.length = 20) :
    (pbkdf2Iterate p n u t).length = 20 := by
  induction n generalizing u t with
  | zero => exact ht
  | succ n ih => exact ih _ _ (by simp [ht])

/-- An output block of PBKDF2 is 20 bytes (R117). -/
@[simp] theorem pbkdf2F_length (p salt : Bytes) (c i : Nat) : (pbkdf2F p salt c i).length = 20 :=
  pbkdf2Iterate_length p _ _ _ (by simp)

/-- A key of `n` bytes is `n` bytes long, whatever the number of blocks (41_hmac_pbkdf2 R118). -/
theorem pbkdf2_length (p salt : Bytes) (c n : Nat) : (pbkdf2 p salt c n).length = n := by
  simp only [pbkdf2, List.length_take, List.length_flatMap, pbkdf2F_length, List.map_const', List.sum_replicate,
    List.length_range, smul_eq_mul]
  omega

end Sys2Proof.Machine
end

