-- ==== Sys2Proof/Laws/Memory.lean ====
section
/-! SUPPORT. The laws of a buffer: a write keeps the canonical form and the capacity, a read after a write gives the value
written and every other byte as before, and two buffers that read alike are the same data. -/

namespace Sys2Proof.Machine

/-- What the canonical form says of a buffer with a first cell. -/
theorem Memory.wf_cons {a : Nat} {v : Byte} {m : Memory} :
    Memory.wf ((a, v) :: m) = true ↔ v ≠ 0 ∧ (∀ c ∈ m, a < c.1) ∧ m.wf = true := by
  simp [Memory.wf, and_assoc]

/-- A buffer all of whose cells lie above `a` reads zero at `a`. -/
theorem Memory.read_eq_zero {m : Memory} {a : Nat} (h : ∀ c ∈ m, a < c.1) : m.read a = 0 := by
  induction m with
  | nil => rfl
  | cons c m ih =>
    have hc : a < c.1 := h c (by simp)
    have hne : a ≠ c.1 := by omega
    simp only [Memory.read, if_neg hne]
    exact ih fun d hd => h d (by simp [hd])

theorem Memory.consCell_zero (a : Nat) (m : Memory) : Memory.consCell a 0 m = m := if_pos rfl

theorem Memory.consCell_of_ne {v : Byte} (hv : v ≠ 0) (a : Nat) (m : Memory) :
    Memory.consCell a v m = (a, v) :: m := if_neg hv

theorem Memory.read_consCell (a b : Nat) (v : Byte) (m : Memory) (h : ∀ c ∈ m, a < c.1) :
    (Memory.consCell a v m).read b = if b = a then v else m.read b := by
  by_cases hv : v = 0
  · subst hv
    rw [Memory.consCell_zero]
    split
    · rename_i hb; rw [hb, Memory.read_eq_zero h]
    · rfl
  · rw [Memory.consCell_of_ne hv]; rfl

theorem Memory.wf_consCell {a : Nat} {v : Byte} {m : Memory} (h : ∀ c ∈ m, a < c.1) (hm : m.wf = true) :
    (Memory.consCell a v m).wf = true := by
  by_cases hv : v = 0
  · subst hv; rwa [Memory.consCell_zero]
  · rw [Memory.consCell_of_ne hv]; exact Memory.wf_cons.2 ⟨hv, h, hm⟩

theorem Memory.mem_consCell {a : Nat} {v : Byte} {m : Memory} {c : Host.Cell} (h : c ∈ Memory.consCell a v m) :
    c.1 = a ∨ c ∈ m := by
  by_cases hv : v = 0
  · subst hv; rw [Memory.consCell_zero] at h; exact .inr h
  · rw [Memory.consCell_of_ne hv] at h
    exact (List.mem_cons.1 h).imp (fun e => by simp [e]) id

/-- A write adds no cell but the one written. -/
theorem Memory.mem_write {m : Memory} {a : Nat} {v : Byte} {c : Host.Cell} (h : c ∈ m.write a v) :
    c.1 = a ∨ c ∈ m := by
  induction m with
  | nil => exact Memory.mem_consCell h
  | cons d m ih =>
    obtain ⟨b, u⟩ := d
    simp only [Memory.write] at h
    split at h
    · exact Memory.mem_consCell h
    · split at h
      · exact (Memory.mem_consCell h).imp id fun hm => by simp [hm]
      · rcases List.mem_cons.1 h with h | h
        · exact .inr (by simp [h])
        · exact (ih h).imp id fun hm => by simp [hm]

/-- A write keeps the canonical form. -/
theorem Memory.wf_write {m : Memory} (a : Nat) (v : Byte) (hm : m.wf = true) : (m.write a v).wf = true := by
  induction m with
  | nil => exact Memory.wf_consCell (by simp) rfl
  | cons d m ih =>
    obtain ⟨b, u⟩ := d
    obtain ⟨hu, hlt, hm'⟩ := Memory.wf_cons.1 hm
    simp only [Memory.write]
    split
    · refine Memory.wf_consCell ?_ hm
      intro c hc
      rcases List.mem_cons.1 hc with rfl | hc
      · assumption
      · have := hlt c hc; omega
    · split
      · rename_i hab; subst hab
        exact Memory.wf_consCell hlt hm'
      · refine Memory.wf_cons.2 ⟨hu, ?_, ih hm'⟩
        intro c hc
        rcases Memory.mem_write hc with hc | hc
        · omega
        · exact hlt c hc

/-- A read after a write: the byte written there, the byte that was there elsewhere. -/
theorem Memory.read_write {m : Memory} (hm : m.wf = true) (a b : Nat) (v : Byte) :
    (m.write a v).read b = if b = a then v else m.read b := by
  induction m with
  | nil => exact Memory.read_consCell a b v [] (by simp)
  | cons d m ih =>
    obtain ⟨c, u⟩ := d
    obtain ⟨hu, hlt, hm'⟩ := Memory.wf_cons.1 hm
    simp only [Memory.write]
    split
    · refine Memory.read_consCell a b v _ ?_
      intro e he
      rcases List.mem_cons.1 he with rfl | he
      · assumption
      · have := hlt e he; omega
    · split
      · rename_i hac; subst hac
        rw [Memory.read_consCell a b v m hlt]
        by_cases hb : b = a <;> simp [hb, Memory.read]
      · rename_i h1 h2
        simp only [Memory.read, ih hm']
        by_cases hb : b = c
        · have hba : b ≠ a := by omega
          subst hb; simp [hba]
        · simp [hb]

/-- A write below the capacity keeps every cell below it. -/
theorem Memory.within_write {m : Memory} {n a : Nat} (v : Byte) (hm : m.within n = true) (ha : a < n) :
    (m.write a v).within n = true := by
  simp only [Memory.within, List.all_eq_true, decide_eq_true_eq] at *
  intro c hc
  rcases Memory.mem_write hc with h | h
  · omega
  · exact hm c h

theorem memWrite_wf {m : Memory} (off : Nat) (v : Bytes) (hm : m.wf = true) : (memWrite m off v).wf = true := by
  induction v generalizing m off with
  | nil => exact hm
  | cons b v ih => exact ih (off + 1) (Memory.wf_write off b hm)

theorem memWrite_within {m : Memory} {n off : Nat} {v : Bytes} (hm : m.within n = true) (h : off + v.length ≤ n) :
    (memWrite m off v).within n = true := by
  induction v generalizing m off with
  | nil => exact hm
  | cons b v ih =>
    simp only [List.length_cons] at h
    exact ih (Memory.within_write b hm (by omega)) (by omega)

/-- `MemWrite` writes exactly the bytes of the string, and leaves every other byte. -/
theorem read_memWrite {m : Memory} (hm : m.wf = true) (off : Nat) (v : Bytes) (a : Nat) :
    (memWrite m off v).read a = if off ≤ a ∧ a < off + v.length then v.getD (a - off) 0 else m.read a := by
  induction v generalizing m off with
  | nil =>
    have : ¬(off ≤ a ∧ a < off + ([] : Bytes).length) := by simp only [List.length_nil]; omega
    rw [if_neg this]; rfl
  | cons b v ih =>
    rw [memWrite, ih (Memory.wf_write off b hm), Memory.read_write hm]
    by_cases h : a = off
    · subst h
      simp
    · by_cases h2 : off + 1 ≤ a ∧ a < off + 1 + v.length
      · have h3 : off ≤ a ∧ a < off + (b :: v).length := by simp only [List.length_cons]; omega
        have h4 : a - off = (a - (off + 1)) + 1 := by omega
        rw [if_pos h2, if_pos h3, h4, List.getD_cons_succ]
      · have h3 : ¬(off ≤ a ∧ a < off + (b :: v).length) := by simp only [List.length_cons]; omega
        rw [if_neg h2, if_neg h3, if_neg h]

@[simp] theorem memRead_length (m : Memory) (off n : Nat) : (memRead m off n).length = n := by simp [memRead]

/-- A byte of what `MemRead` returns. -/
theorem memRead_getD {m : Memory} {off n k : Nat} (h : k < n) : (memRead m off n).getD k 0 = m.read (off + k) := by
  simp [memRead, List.getD_eq_getElem?_getD, h]

/-- `MemRead` depends on the bytes it reads only. -/
theorem memRead_congr {m m' : Memory} {off n : Nat} (h : ∀ k < n, m'.read (off + k) = m.read (off + k)) :
    memRead m' off n = memRead m off n := by
  simp only [memRead]
  exact List.map_congr_left fun k hk => h k (List.mem_range.1 hk)

/-- `MemRead` of what `MemWrite` wrote. -/
theorem memRead_memWrite {m : Memory} (hm : m.wf = true) (off : Nat) (v : Bytes) :
    memRead (memWrite m off v) off v.length = v := by
  apply List.ext_getElem (by simp)
  intro k h1 h2
  have h3 : off ≤ off + k ∧ off + k < off + v.length := by omega
  simp [memRead, read_memWrite hm, h2]

/-- Two buffers in canonical form that read alike everywhere are the same data. -/
theorem Memory.ext_of_read {m m' : Memory} (hm : m.wf = true) (hm' : m'.wf = true)
    (h : ∀ a, m.read a = m'.read a) : m = m' := by
  induction m generalizing m' with
  | nil =>
    cases m' with
    | nil => rfl
    | cons d m' =>
      obtain ⟨hv, -, -⟩ := Memory.wf_cons.1 hm'
      have := h d.1
      simp [Memory.read] at this
      exact absurd this.symm hv
  | cons c m ih =>
    obtain ⟨hv, hlt, hm2⟩ := Memory.wf_cons.1 hm
    cases m' with
    | nil =>
      have := h c.1
      simp [Memory.read] at this
      exact absurd this hv
    | cons d m' =>
      obtain ⟨hv', hlt', hm2'⟩ := Memory.wf_cons.1 hm'
      obtain ⟨a, v⟩ := c
      obtain ⟨b, u⟩ := d
      have key : a = b := by
        rcases Nat.lt_trichotomy a b with hab | hab | hab
        · have h1 := h a
          have hz : Memory.read ((b, u) :: m') a = 0 := Memory.read_eq_zero fun e he => by
            rcases List.mem_cons.1 he with rfl | he
            · exact hab
            · have := hlt' e he; simp at this; omega
          rw [hz] at h1
          simp [Memory.read] at h1
          exact absurd h1 hv
        · exact hab
        · have h1 := h b
          have hz : Memory.read ((a, v) :: m) b = 0 := Memory.read_eq_zero fun e he => by
            rcases List.mem_cons.1 he with rfl | he
            · exact hab
            · have := hlt e he; simp at this; omega
          rw [hz] at h1
          simp [Memory.read] at h1
          exact absurd h1.symm hv'
      subst key
      have hvu : v = u := by simpa [Memory.read] using h a
      subst hvu
      congr 1
      refine ih hm2 hm2' fun x => ?_
      by_cases hx : x = a
      · subst hx
        rw [Memory.read_eq_zero hlt, Memory.read_eq_zero hlt']
      · simpa [Memory.read, hx] using h x

end Sys2Proof.Machine
end

