-- ==== Sys2Proof/Laws/Operands.lean ====
section
/-! SUPPORT. The length checks as inequalities, the lengths of the operands, and `padLength` and `encLength` against the
length they are computed from. -/

namespace Sys2Proof.Machine

theorem inTooLong_iff (s : State) : inTooLong s = true ↔ s.params.bufMax < s.inlen.toNat := by
  simp [inTooLong, inLength]

theorem pwTooLong_iff (s : State) : pwTooLong s = true ↔ s.params.pwMax < s.pwlen.toNat := by
  simp [pwTooLong, pwLength]

theorem inTooLong_of_le {s : State} (h : s.inlen.toNat ≤ s.params.bufMax) : inTooLong s = false := by
  simpa [inTooLong, inLength] using h

theorem pwTooLong_of_le {s : State} (h : s.pwlen.toNat ≤ s.params.pwMax) : pwTooLong s = false := by
  simpa [pwTooLong, pwLength] using h

/-- The padded length is a multiple of 16, 1 to 16 above the length (43_padding_cbc R160). -/
theorem padLength_bounds (n : Nat) : padLength n % 16 = 0 ∧ n < padLength n ∧ padLength n ≤ n + 16 := by
  unfold padLength; omega

/-- A blob's length is the padded length and 16 more (44_pipeline R181). -/
theorem encLength_eq (n : Nat) : encLength n = 16 + padLength n := rfl

@[simp] theorem inOperand_length (s : State) : (inOperand s).length = s.inlen.toNat := by simp [inOperand, inLength]
@[simp] theorem pwOperand_length (s : State) : (pwOperand s).length = s.pwlen.toNat := by simp [pwOperand, pwLength]
@[simp] theorem keyBytes_length (s : State) : (keyBytes s).length = 32 := by simp [keyBytes]

end Sys2Proof.Machine
end

