-- ==== Sys2Proof/Laws/State.lean ====
section
/-! SUPPORT. What each named update of State leaves in each field, one lemma a field, true by definition. -/

namespace Sys2Proof.Machine

/-! ### raiseError -/

@[simp] theorem raiseError_stage (c : ErrCode) (s : State) : (raiseError c s).stage = .error := rfl
@[simp] theorem raiseError_keyv (c : ErrCode) (s : State) : (raiseError c s).keyv = s.keyv := rfl
@[simp] theorem raiseError_ivv (c : ErrCode) (s : State) : (raiseError c s).ivv = s.ivv := rfl
@[simp] theorem raiseError_err (c : ErrCode) (s : State) : (raiseError c s).err = c := rfl
@[simp] theorem raiseError_pwlen (c : ErrCode) (s : State) : (raiseError c s).pwlen = s.pwlen := rfl
@[simp] theorem raiseError_inlen (c : ErrCode) (s : State) : (raiseError c s).inlen = s.inlen := rfl
@[simp] theorem raiseError_outlen (c : ErrCode) (s : State) : (raiseError c s).outlen = 0 := rfl
@[simp] theorem raiseError_key (c : ErrCode) (s : State) : (raiseError c s).key = s.key := rfl
@[simp] theorem raiseError_iv (c : ErrCode) (s : State) : (raiseError c s).iv = s.iv := rfl
@[simp] theorem raiseError_pwBuf (c : ErrCode) (s : State) : (raiseError c s).pwBuf = s.pwBuf := rfl
@[simp] theorem raiseError_inBuf (c : ErrCode) (s : State) : (raiseError c s).inBuf = s.inBuf := rfl
@[simp] theorem raiseError_outBuf (c : ErrCode) (s : State) : (raiseError c s).outBuf = s.outBuf := rfl
@[simp] theorem raiseError_params (c : ErrCode) (s : State) : (raiseError c s).params = s.params := rfl
@[simp] theorem raiseError_pending (c : ErrCode) (s : State) : (raiseError c s).pending = s.pending := rfl
@[simp] theorem raiseError_returned (c : ErrCode) (s : State) : (raiseError c s).returned = s.returned := rfl
@[simp] theorem raiseError_primFaults (c : ErrCode) (s : State) : (raiseError c s).primFaults = s.primFaults := rfl
@[simp] theorem raiseError_primAsked (c : ErrCode) (s : State) : (raiseError c s).primAsked = s.primAsked := rfl
@[simp] theorem raiseError_rngs (c : ErrCode) (s : State) : (raiseError c s).rngs = s.rngs := rfl
@[simp] theorem raiseError_rngAsked (c : ErrCode) (s : State) : (raiseError c s).rngAsked = s.rngAsked := rfl

/-! ### raiseFatal -/

@[simp] theorem raiseFatal_stage (c : ErrCode) (s : State) : (raiseFatal c s).stage = .fatal := rfl
@[simp] theorem raiseFatal_keyv (c : ErrCode) (s : State) : (raiseFatal c s).keyv = false := rfl
@[simp] theorem raiseFatal_ivv (c : ErrCode) (s : State) : (raiseFatal c s).ivv = false := rfl
@[simp] theorem raiseFatal_err (c : ErrCode) (s : State) : (raiseFatal c s).err = c := rfl
@[simp] theorem raiseFatal_pwlen (c : ErrCode) (s : State) : (raiseFatal c s).pwlen = s.pwlen := rfl
@[simp] theorem raiseFatal_inlen (c : ErrCode) (s : State) : (raiseFatal c s).inlen = s.inlen := rfl
@[simp] theorem raiseFatal_outlen (c : ErrCode) (s : State) : (raiseFatal c s).outlen = 0 := rfl
@[simp] theorem raiseFatal_key (c : ErrCode) (s : State) : (raiseFatal c s).key = s.key := rfl
@[simp] theorem raiseFatal_iv (c : ErrCode) (s : State) : (raiseFatal c s).iv = s.iv := rfl
@[simp] theorem raiseFatal_pwBuf (c : ErrCode) (s : State) : (raiseFatal c s).pwBuf = s.pwBuf := rfl
@[simp] theorem raiseFatal_inBuf (c : ErrCode) (s : State) : (raiseFatal c s).inBuf = s.inBuf := rfl
@[simp] theorem raiseFatal_outBuf (c : ErrCode) (s : State) : (raiseFatal c s).outBuf = s.outBuf := rfl
@[simp] theorem raiseFatal_params (c : ErrCode) (s : State) : (raiseFatal c s).params = s.params := rfl
@[simp] theorem raiseFatal_pending (c : ErrCode) (s : State) : (raiseFatal c s).pending = s.pending := rfl
@[simp] theorem raiseFatal_returned (c : ErrCode) (s : State) : (raiseFatal c s).returned = s.returned := rfl
@[simp] theorem raiseFatal_primFaults (c : ErrCode) (s : State) : (raiseFatal c s).primFaults = s.primFaults := rfl
@[simp] theorem raiseFatal_primAsked (c : ErrCode) (s : State) : (raiseFatal c s).primAsked = s.primAsked := rfl
@[simp] theorem raiseFatal_rngs (c : ErrCode) (s : State) : (raiseFatal c s).rngs = s.rngs := rfl
@[simp] theorem raiseFatal_rngAsked (c : ErrCode) (s : State) : (raiseFatal c s).rngAsked = s.rngAsked := rfl

/-! ### succeed -/

@[simp] theorem succeed_stage (s : State) : (succeed s).stage = .done := rfl
@[simp] theorem succeed_keyv (s : State) : (succeed s).keyv = s.keyv := rfl
@[simp] theorem succeed_ivv (s : State) : (succeed s).ivv = s.ivv := rfl
@[simp] theorem succeed_err (s : State) : (succeed s).err = .none := rfl
@[simp] theorem succeed_pwlen (s : State) : (succeed s).pwlen = s.pwlen := rfl
@[simp] theorem succeed_inlen (s : State) : (succeed s).inlen = s.inlen := rfl
@[simp] theorem succeed_outlen (s : State) : (succeed s).outlen = s.outlen := rfl
@[simp] theorem succeed_key (s : State) : (succeed s).key = s.key := rfl
@[simp] theorem succeed_iv (s : State) : (succeed s).iv = s.iv := rfl
@[simp] theorem succeed_pwBuf (s : State) : (succeed s).pwBuf = s.pwBuf := rfl
@[simp] theorem succeed_inBuf (s : State) : (succeed s).inBuf = s.inBuf := rfl
@[simp] theorem succeed_outBuf (s : State) : (succeed s).outBuf = s.outBuf := rfl
@[simp] theorem succeed_params (s : State) : (succeed s).params = s.params := rfl
@[simp] theorem succeed_pending (s : State) : (succeed s).pending = s.pending := rfl
@[simp] theorem succeed_returned (s : State) : (succeed s).returned = s.returned := rfl
@[simp] theorem succeed_primFaults (s : State) : (succeed s).primFaults = s.primFaults := rfl
@[simp] theorem succeed_primAsked (s : State) : (succeed s).primAsked = s.primAsked := rfl
@[simp] theorem succeed_rngs (s : State) : (succeed s).rngs = s.rngs := rfl
@[simp] theorem succeed_rngAsked (s : State) : (succeed s).rngAsked = s.rngAsked := rfl

/-! ### writeResult -/

@[simp] theorem writeResult_stage (v : Bytes) (s : State) : (writeResult v s).stage = s.stage := rfl
@[simp] theorem writeResult_keyv (v : Bytes) (s : State) : (writeResult v s).keyv = s.keyv := rfl
@[simp] theorem writeResult_ivv (v : Bytes) (s : State) : (writeResult v s).ivv = s.ivv := rfl
@[simp] theorem writeResult_err (v : Bytes) (s : State) : (writeResult v s).err = s.err := rfl
@[simp] theorem writeResult_pwlen (v : Bytes) (s : State) : (writeResult v s).pwlen = s.pwlen := rfl
@[simp] theorem writeResult_inlen (v : Bytes) (s : State) : (writeResult v s).inlen = s.inlen := rfl
@[simp] theorem writeResult_outlen (v : Bytes) (s : State) : (writeResult v s).outlen = BitVec.ofNat 32 v.length := rfl
@[simp] theorem writeResult_key (v : Bytes) (s : State) : (writeResult v s).key = s.key := rfl
@[simp] theorem writeResult_iv (v : Bytes) (s : State) : (writeResult v s).iv = s.iv := rfl
@[simp] theorem writeResult_pwBuf (v : Bytes) (s : State) : (writeResult v s).pwBuf = s.pwBuf := rfl
@[simp] theorem writeResult_inBuf (v : Bytes) (s : State) : (writeResult v s).inBuf = s.inBuf := rfl
@[simp] theorem writeResult_outBuf (v : Bytes) (s : State) : (writeResult v s).outBuf = memWrite s.outBuf 0 v := rfl
@[simp] theorem writeResult_params (v : Bytes) (s : State) : (writeResult v s).params = s.params := rfl
@[simp] theorem writeResult_pending (v : Bytes) (s : State) : (writeResult v s).pending = s.pending := rfl
@[simp] theorem writeResult_returned (v : Bytes) (s : State) : (writeResult v s).returned = s.returned := rfl
@[simp] theorem writeResult_primFaults (v : Bytes) (s : State) : (writeResult v s).primFaults = s.primFaults := rfl
@[simp] theorem writeResult_primAsked (v : Bytes) (s : State) : (writeResult v s).primAsked = s.primAsked := rfl
@[simp] theorem writeResult_rngs (v : Bytes) (s : State) : (writeResult v s).rngs = s.rngs := rfl
@[simp] theorem writeResult_rngAsked (v : Bytes) (s : State) : (writeResult v s).rngAsked = s.rngAsked := rfl

/-! ### loadKey -/

@[simp] theorem loadKey_stage (v : Bytes) (s : State) : (loadKey v s).stage = s.stage := rfl
@[simp] theorem loadKey_keyv (v : Bytes) (s : State) : (loadKey v s).keyv = true := rfl
@[simp] theorem loadKey_ivv (v : Bytes) (s : State) : (loadKey v s).ivv = s.ivv := rfl
@[simp] theorem loadKey_err (v : Bytes) (s : State) : (loadKey v s).err = s.err := rfl
@[simp] theorem loadKey_pwlen (v : Bytes) (s : State) : (loadKey v s).pwlen = s.pwlen := rfl
@[simp] theorem loadKey_inlen (v : Bytes) (s : State) : (loadKey v s).inlen = s.inlen := rfl
@[simp] theorem loadKey_outlen (v : Bytes) (s : State) : (loadKey v s).outlen = s.outlen := rfl
@[simp] theorem loadKey_key (v : Bytes) (s : State) : (loadKey v s).key = toReg 32 v := rfl
@[simp] theorem loadKey_iv (v : Bytes) (s : State) : (loadKey v s).iv = s.iv := rfl
@[simp] theorem loadKey_pwBuf (v : Bytes) (s : State) : (loadKey v s).pwBuf = s.pwBuf := rfl
@[simp] theorem loadKey_inBuf (v : Bytes) (s : State) : (loadKey v s).inBuf = s.inBuf := rfl
@[simp] theorem loadKey_outBuf (v : Bytes) (s : State) : (loadKey v s).outBuf = s.outBuf := rfl
@[simp] theorem loadKey_params (v : Bytes) (s : State) : (loadKey v s).params = s.params := rfl
@[simp] theorem loadKey_pending (v : Bytes) (s : State) : (loadKey v s).pending = s.pending := rfl
@[simp] theorem loadKey_returned (v : Bytes) (s : State) : (loadKey v s).returned = s.returned := rfl
@[simp] theorem loadKey_primFaults (v : Bytes) (s : State) : (loadKey v s).primFaults = s.primFaults := rfl
@[simp] theorem loadKey_primAsked (v : Bytes) (s : State) : (loadKey v s).primAsked = s.primAsked := rfl
@[simp] theorem loadKey_rngs (v : Bytes) (s : State) : (loadKey v s).rngs = s.rngs := rfl
@[simp] theorem loadKey_rngAsked (v : Bytes) (s : State) : (loadKey v s).rngAsked = s.rngAsked := rfl

/-! ### storeIv -/

@[simp] theorem storeIv_stage (d : Vector Byte 16) (s : State) : (storeIv d s).stage = s.stage := rfl
@[simp] theorem storeIv_keyv (d : Vector Byte 16) (s : State) : (storeIv d s).keyv = s.keyv := rfl
@[simp] theorem storeIv_ivv (d : Vector Byte 16) (s : State) : (storeIv d s).ivv = true := rfl
@[simp] theorem storeIv_err (d : Vector Byte 16) (s : State) : (storeIv d s).err = s.err := rfl
@[simp] theorem storeIv_pwlen (d : Vector Byte 16) (s : State) : (storeIv d s).pwlen = s.pwlen := rfl
@[simp] theorem storeIv_inlen (d : Vector Byte 16) (s : State) : (storeIv d s).inlen = s.inlen := rfl
@[simp] theorem storeIv_outlen (d : Vector Byte 16) (s : State) : (storeIv d s).outlen = s.outlen := rfl
@[simp] theorem storeIv_key (d : Vector Byte 16) (s : State) : (storeIv d s).key = s.key := rfl
@[simp] theorem storeIv_iv (d : Vector Byte 16) (s : State) : (storeIv d s).iv = d := rfl
@[simp] theorem storeIv_pwBuf (d : Vector Byte 16) (s : State) : (storeIv d s).pwBuf = s.pwBuf := rfl
@[simp] theorem storeIv_inBuf (d : Vector Byte 16) (s : State) : (storeIv d s).inBuf = s.inBuf := rfl
@[simp] theorem storeIv_outBuf (d : Vector Byte 16) (s : State) : (storeIv d s).outBuf = s.outBuf := rfl
@[simp] theorem storeIv_params (d : Vector Byte 16) (s : State) : (storeIv d s).params = s.params := rfl
@[simp] theorem storeIv_pending (d : Vector Byte 16) (s : State) : (storeIv d s).pending = s.pending := rfl
@[simp] theorem storeIv_returned (d : Vector Byte 16) (s : State) : (storeIv d s).returned = s.returned := rfl
@[simp] theorem storeIv_primFaults (d : Vector Byte 16) (s : State) : (storeIv d s).primFaults = s.primFaults := rfl
@[simp] theorem storeIv_primAsked (d : Vector Byte 16) (s : State) : (storeIv d s).primAsked = s.primAsked := rfl
@[simp] theorem storeIv_rngs (d : Vector Byte 16) (s : State) : (storeIv d s).rngs = s.rngs := rfl
@[simp] theorem storeIv_rngAsked (d : Vector Byte 16) (s : State) : (storeIv d s).rngAsked = s.rngAsked := rfl

/-! ### noResult -/

@[simp] theorem noResult_stage (s : State) : (noResult s).stage = s.stage := rfl
@[simp] theorem noResult_keyv (s : State) : (noResult s).keyv = s.keyv := rfl
@[simp] theorem noResult_ivv (s : State) : (noResult s).ivv = s.ivv := rfl
@[simp] theorem noResult_err (s : State) : (noResult s).err = s.err := rfl
@[simp] theorem noResult_pwlen (s : State) : (noResult s).pwlen = s.pwlen := rfl
@[simp] theorem noResult_inlen (s : State) : (noResult s).inlen = s.inlen := rfl
@[simp] theorem noResult_outlen (s : State) : (noResult s).outlen = 0 := rfl
@[simp] theorem noResult_key (s : State) : (noResult s).key = s.key := rfl
@[simp] theorem noResult_iv (s : State) : (noResult s).iv = s.iv := rfl
@[simp] theorem noResult_pwBuf (s : State) : (noResult s).pwBuf = s.pwBuf := rfl
@[simp] theorem noResult_inBuf (s : State) : (noResult s).inBuf = s.inBuf := rfl
@[simp] theorem noResult_outBuf (s : State) : (noResult s).outBuf = s.outBuf := rfl
@[simp] theorem noResult_params (s : State) : (noResult s).params = s.params := rfl
@[simp] theorem noResult_pending (s : State) : (noResult s).pending = s.pending := rfl
@[simp] theorem noResult_returned (s : State) : (noResult s).returned = s.returned := rfl
@[simp] theorem noResult_primFaults (s : State) : (noResult s).primFaults = s.primFaults := rfl
@[simp] theorem noResult_primAsked (s : State) : (noResult s).primAsked = s.primAsked := rfl
@[simp] theorem noResult_rngs (s : State) : (noResult s).rngs = s.rngs := rfl
@[simp] theorem noResult_rngAsked (s : State) : (noResult s).rngAsked = s.rngAsked := rfl

/-! ### primFaultAsked -/

@[simp] theorem primFaultAsked_stage (s : State) : (primFaultAsked s).stage = s.stage := rfl
@[simp] theorem primFaultAsked_keyv (s : State) : (primFaultAsked s).keyv = s.keyv := rfl
@[simp] theorem primFaultAsked_ivv (s : State) : (primFaultAsked s).ivv = s.ivv := rfl
@[simp] theorem primFaultAsked_err (s : State) : (primFaultAsked s).err = s.err := rfl
@[simp] theorem primFaultAsked_pwlen (s : State) : (primFaultAsked s).pwlen = s.pwlen := rfl
@[simp] theorem primFaultAsked_inlen (s : State) : (primFaultAsked s).inlen = s.inlen := rfl
@[simp] theorem primFaultAsked_outlen (s : State) : (primFaultAsked s).outlen = s.outlen := rfl
@[simp] theorem primFaultAsked_key (s : State) : (primFaultAsked s).key = s.key := rfl
@[simp] theorem primFaultAsked_iv (s : State) : (primFaultAsked s).iv = s.iv := rfl
@[simp] theorem primFaultAsked_pwBuf (s : State) : (primFaultAsked s).pwBuf = s.pwBuf := rfl
@[simp] theorem primFaultAsked_inBuf (s : State) : (primFaultAsked s).inBuf = s.inBuf := rfl
@[simp] theorem primFaultAsked_outBuf (s : State) : (primFaultAsked s).outBuf = s.outBuf := rfl
@[simp] theorem primFaultAsked_params (s : State) : (primFaultAsked s).params = s.params := rfl
@[simp] theorem primFaultAsked_pending (s : State) : (primFaultAsked s).pending = s.pending := rfl
@[simp] theorem primFaultAsked_returned (s : State) : (primFaultAsked s).returned = s.returned := rfl
@[simp] theorem primFaultAsked_primFaults (s : State) : (primFaultAsked s).primFaults = s.primFaults.tail := rfl
@[simp] theorem primFaultAsked_primAsked (s : State) : (primFaultAsked s).primAsked = s.primAsked + 1 := rfl
@[simp] theorem primFaultAsked_rngs (s : State) : (primFaultAsked s).rngs = s.rngs := rfl
@[simp] theorem primFaultAsked_rngAsked (s : State) : (primFaultAsked s).rngAsked = s.rngAsked := rfl

/-! ### rngWasAsked -/

@[simp] theorem rngWasAsked_stage (s : State) : (rngWasAsked s).stage = s.stage := rfl
@[simp] theorem rngWasAsked_keyv (s : State) : (rngWasAsked s).keyv = s.keyv := rfl
@[simp] theorem rngWasAsked_ivv (s : State) : (rngWasAsked s).ivv = s.ivv := rfl
@[simp] theorem rngWasAsked_err (s : State) : (rngWasAsked s).err = s.err := rfl
@[simp] theorem rngWasAsked_pwlen (s : State) : (rngWasAsked s).pwlen = s.pwlen := rfl
@[simp] theorem rngWasAsked_inlen (s : State) : (rngWasAsked s).inlen = s.inlen := rfl
@[simp] theorem rngWasAsked_outlen (s : State) : (rngWasAsked s).outlen = s.outlen := rfl
@[simp] theorem rngWasAsked_key (s : State) : (rngWasAsked s).key = s.key := rfl
@[simp] theorem rngWasAsked_iv (s : State) : (rngWasAsked s).iv = s.iv := rfl
@[simp] theorem rngWasAsked_pwBuf (s : State) : (rngWasAsked s).pwBuf = s.pwBuf := rfl
@[simp] theorem rngWasAsked_inBuf (s : State) : (rngWasAsked s).inBuf = s.inBuf := rfl
@[simp] theorem rngWasAsked_outBuf (s : State) : (rngWasAsked s).outBuf = s.outBuf := rfl
@[simp] theorem rngWasAsked_params (s : State) : (rngWasAsked s).params = s.params := rfl
@[simp] theorem rngWasAsked_pending (s : State) : (rngWasAsked s).pending = s.pending := rfl
@[simp] theorem rngWasAsked_returned (s : State) : (rngWasAsked s).returned = s.returned := rfl
@[simp] theorem rngWasAsked_primFaults (s : State) : (rngWasAsked s).primFaults = s.primFaults := rfl
@[simp] theorem rngWasAsked_primAsked (s : State) : (rngWasAsked s).primAsked = s.primAsked := rfl
@[simp] theorem rngWasAsked_rngs (s : State) : (rngWasAsked s).rngs = s.rngs.tail := rfl
@[simp] theorem rngWasAsked_rngAsked (s : State) : (rngWasAsked s).rngAsked = s.rngAsked + 1 := rfl

/-! ### zeroAll -/

@[simp] theorem zeroAll_stage (s : State) : (zeroAll s).stage = .idle := rfl
@[simp] theorem zeroAll_keyv (s : State) : (zeroAll s).keyv = false := rfl
@[simp] theorem zeroAll_ivv (s : State) : (zeroAll s).ivv = false := rfl
@[simp] theorem zeroAll_err (s : State) : (zeroAll s).err = .none := rfl
@[simp] theorem zeroAll_pwlen (s : State) : (zeroAll s).pwlen = 0 := rfl
@[simp] theorem zeroAll_inlen (s : State) : (zeroAll s).inlen = 0 := rfl
@[simp] theorem zeroAll_outlen (s : State) : (zeroAll s).outlen = 0 := rfl
@[simp] theorem zeroAll_key (s : State) : (zeroAll s).key = Vector.replicate 32 0 := rfl
@[simp] theorem zeroAll_iv (s : State) : (zeroAll s).iv = Vector.replicate 16 0 := rfl
@[simp] theorem zeroAll_pwBuf (s : State) : (zeroAll s).pwBuf = [] := rfl
@[simp] theorem zeroAll_inBuf (s : State) : (zeroAll s).inBuf = [] := rfl
@[simp] theorem zeroAll_outBuf (s : State) : (zeroAll s).outBuf = [] := rfl
@[simp] theorem zeroAll_params (s : State) : (zeroAll s).params = s.params := rfl
@[simp] theorem zeroAll_pending (s : State) : (zeroAll s).pending = s.pending := rfl
@[simp] theorem zeroAll_returned (s : State) : (zeroAll s).returned = s.returned := rfl
@[simp] theorem zeroAll_primFaults (s : State) : (zeroAll s).primFaults = s.primFaults := rfl
@[simp] theorem zeroAll_primAsked (s : State) : (zeroAll s).primAsked = s.primAsked := rfl
@[simp] theorem zeroAll_rngs (s : State) : (zeroAll s).rngs = s.rngs := rfl
@[simp] theorem zeroAll_rngAsked (s : State) : (zeroAll s).rngAsked = s.rngAsked := rfl

end Sys2Proof.Machine
end

