-- ==== Sys2Proof/Laws/Ops.lean ====
section
/-! SUPPORT. One lemma for each shared operation that says once what it can do: the acceptance gates, the questions to the
oracles, an illegal word, the writing of a result. -/

namespace Sys2Proof.Machine

theorem State.ready_iff (s : State) : s.ready = true ↔ s.stage = .idle ∨ s.stage = .done := by
  unfold State.ready; cases s.stage <;> simp

theorem State.not_ready_iff (s : State) : s.ready = false ↔ s.stage = .error ∨ s.stage = .fatal := by
  unfold State.ready; cases s.stage <;> simp

/-- The gate runs the command in IDLE and DONE. -/
theorem accept_of_ready {s : State} (h : s.ready = true) (run : State → State) : accept s run = run s := by
  unfold State.ready at h; unfold accept
  split at h <;> simp_all

/-- The gate ignores the command in ERROR and FATAL. -/
theorem accept_of_not_ready {s : State} (h : s.ready = false) (run : State → State) : accept s run = s := by
  unfold State.ready at h; unfold accept
  split at h <;> simp_all

theorem acceptClear_of_fatal {s : State} (h : s.stage = .fatal) (run : State → State) : acceptClear s run = s := by
  simp [acceptClear, h]

theorem acceptClear_of_not_fatal {s : State} (h : s.stage ≠ .fatal) (run : State → State) :
    acceptClear s run = run s := by
  unfold acceptClear; split <;> simp_all

theorem illegalCommand_of_ready {s : State} (h : s.ready = true) :
    illegalCommand s = raiseError .illegalCmd s := accept_of_ready h _

theorem illegalCommand_of_not_ready {s : State} (h : s.ready = false) : illegalCommand s = s :=
  accept_of_not_ready h _

/-- Everything `checkPrim` can do. -/
theorem checkPrim_cases (s : State) (run : State → State) :
    (primFaultAnswer s = true ∧ checkPrim s run = raiseFatal .fatalPrim (primFaultAsked s)) ∨
    (primFaultAnswer s = false ∧ checkPrim s run = run (primFaultAsked s)) := by
  cases h : primFaultAnswer s <;> simp [checkPrim, h]

theorem checkPrim_of_false {s : State} (h : primFaultAnswer s = false) (run : State → State) :
    checkPrim s run = run (primFaultAsked s) := by simp [checkPrim, h]

theorem checkPrim_of_true {s : State} (h : primFaultAnswer s = true) (run : State → State) :
    checkPrim s run = raiseFatal .fatalPrim (primFaultAsked s) := by simp [checkPrim, h]

theorem drawIv_of_bytes {s : State} {d : Vector Byte 16} (h : rngAnswer s = .bytes d)
    (run : Vector Byte 16 → State → State) : drawIv s run = run d (rngWasAsked s) := by simp [drawIv, h]

theorem drawIv_of_fail {s : State} (h : rngAnswer s = .fail) (run : Vector Byte 16 → State → State) :
    drawIv s run = raiseFatal .fatalRng (rngWasAsked s) := by simp [drawIv, h]

/-- A listed answer is the answer; asking takes it off the list. -/
@[simp] theorem primFaultAnswer_cons (s : State) (b : Bool) (rest : List Bool) (h : s.primFaults = b :: rest) :
    primFaultAnswer s = b := by simp [primFaultAnswer, h]

@[simp] theorem rngAnswer_cons (s : State) (d : RngAnswer) (rest : List RngAnswer) (h : s.rngs = d :: rest) :
    rngAnswer s = d := by simp [rngAnswer, h]

/-- The operands do not depend on the oracles. -/
@[simp] theorem inOperand_primFaultAsked (s : State) : inOperand (primFaultAsked s) = inOperand s := rfl
@[simp] theorem pwOperand_primFaultAsked (s : State) : pwOperand (primFaultAsked s) = pwOperand s := rfl
@[simp] theorem keyBytes_primFaultAsked (s : State) : keyBytes (primFaultAsked s) = keyBytes s := rfl
@[simp] theorem rngAnswer_primFaultAsked (s : State) : rngAnswer (primFaultAsked s) = rngAnswer s := rfl
@[simp] theorem inOperand_rngWasAsked (s : State) : inOperand (rngWasAsked s) = inOperand s := rfl
@[simp] theorem keyBytes_rngWasAsked (s : State) : keyBytes (rngWasAsked s) = keyBytes s := rfl

/-- What `MemWrite(OUT, 0, len(v), v)` leaves (20_memory R58). -/
theorem memWrite_holdsResult {m : Memory} (hm : m.wf = true) (v : Bytes) : HoldsResult m (memWrite m 0 v) v := by
  intro a
  rw [read_memWrite hm]
  by_cases h : a < v.length <;> simp [h]

end Sys2Proof.Machine
end

