-- ==== Sys2Proof/Laws/PerInstr.lean ====
section
/-! SUPPORT. The per-instruction family of LAWS.json: each command's word in the table's numbering, and that it has no
reserved bit (30_encoding R70, R72). -/

namespace Sys2Proof.Laws.Encoding

/-- The command is well formed, its word is format C with `RSV` = 0, and the word is the one the table decodes to it. -/
def Statement (i : Instr) : Prop :=
  i.wf = true ∧ rsvField (encode i) = 0 ∧ decodeTableWord 32 (encode i).toNat = some i

theorem derive : Statement .derive := ⟨rfl, rfl, rfl⟩
theorem encrypt : Statement .encrypt := ⟨rfl, rfl, rfl⟩
theorem decrypt : Statement .decrypt := ⟨rfl, rfl, rfl⟩
theorem ldkey : Statement .ldkey := ⟨rfl, rfl, rfl⟩
theorem clear : Statement .clear := ⟨rfl, rfl, rfl⟩
theorem sha1 : Statement .sha1 := ⟨rfl, rfl, rfl⟩
theorem hmac : Statement .hmac := ⟨rfl, rfl, rfl⟩
theorem aesencb : Statement .aesencb := ⟨rfl, rfl, rfl⟩
theorem aesdecb : Statement .aesdecb := ⟨rfl, rfl, rfl⟩
theorem pad : Statement .pad := ⟨rfl, rfl, rfl⟩
theorem unpad : Statement .unpad := ⟨rfl, rfl, rfl⟩

end Sys2Proof.Laws.Encoding
end

