-- ==== Sys2Proof/Laws/Step.lean ====
section
/-! SUPPORT. What a step can do, said once: an idle step, a step that serves a transaction, and the outcomes of serving one. -/

namespace Sys2Proof.Machine

theorem step_nil {s : State} (h : s.pending = []) : step s = .next s := by simp [step, h]

theorem step_cons {s : State} {t : Txn} {rest : List Txn} (h : s.pending = t :: rest) :
    step s = serve t { s with pending := rest } := by simp [step, h]

/-- The states in which the checks of a command leave it: no oracle asked, `prim_fault` asked, or both asked. -/
def Asked (s o : State) : Prop := o = s ∨ o = primFaultAsked s ∨ o = rngWasAsked (primFaultAsked s)

/-- The ends of an accepted command from the state `o` its checks left: an error entry of either class, a result, a key
loaded without or with a result, or a result with its IV. -/
def Ended (i : Instr) (o t : State) : Prop :=
  (∃ c, c.cls = some .error ∧ t = raiseError c o) ∨ (∃ c, c.cls = some .fatal ∧ t = raiseFatal c o) ∨
  (∃ v, t = succeed (writeResult v o)) ∨
  (i = .ldkey ∧ ∃ v, t = succeed (noResult (loadKey v o))) ∨
  (i = .derive ∧ ∃ v, t = succeed (writeResult v (loadKey v o))) ∨
  ((i = .encrypt ∨ i = .decrypt) ∧ ∃ v d, t = succeed (writeResult v (storeIv d o)))

/-- Everything a command can do: be ignored, be `CLEAR`, or end as `Ended` says. -/
theorem exec_cases {i : Instr} {s t : State} (h : exec i s = .next t) :
    (t = s ∧ s.ready = false ∧ (i ≠ .clear ∨ s.stage = .fatal)) ∨
    (i = .clear ∧ s.stage ≠ .fatal ∧ t = zeroAll s) ∨
    (i ≠ .clear ∧ s.ready = true ∧ ∃ o, Asked s o ∧ Ended i o t) := by
  by_cases hi : i = .clear
  · subst hi
    by_cases hf : s.stage = .fatal
    · simp only [exec, execClear, acceptClear_of_fatal hf, Host.Outcome.next.injEq] at h
      exact .inl ⟨h.symm, (State.not_ready_iff s).2 (.inr hf), .inr hf⟩
    · simp only [exec, execClear, acceptClear_of_not_fatal hf, Host.Outcome.next.injEq] at h
      exact .inr (.inl ⟨rfl, hf, h.symm⟩)
  · cases hr : s.ready with
    | false =>
      refine .inl ⟨?_, rfl, .inl hi⟩
      cases i <;> first
        | exact absurd rfl hi
        | (simp only [exec, execDerive, execEncrypt, execDecrypt, execLdkey, execSha1, execHmac, execAesencb, execAesdecb,
            execPad, execUnpad, blockCommand, accept_of_not_ready hr, Host.Outcome.next.injEq] at h
           exact h.symm)
    | true =>
      refine .inr (.inr ⟨hi, rfl, ?_⟩)
      cases i <;> first | exact absurd rfl hi | skip
      all_goals simp only [exec, execDerive, execEncrypt, execDecrypt, execLdkey, execSha1, execHmac, execAesencb,
        execAesdecb, execPad, execUnpad, blockCommand, accept_of_ready hr, checkPrim, drawIv, Host.Outcome.next.injEq] at h
      all_goals repeat' split at h
      all_goals subst h
      all_goals first
        | exact ⟨_, .inl rfl, .inl ⟨_, rfl, rfl⟩⟩
        | exact ⟨_, .inr (.inl rfl), .inl ⟨_, rfl, rfl⟩⟩
        | exact ⟨_, .inl rfl, .inr (.inl ⟨_, rfl, rfl⟩)⟩
        | exact ⟨_, .inr (.inl rfl), .inr (.inl ⟨_, rfl, rfl⟩)⟩
        | exact ⟨_, .inr (.inr rfl), .inr (.inl ⟨_, rfl, rfl⟩)⟩
        | exact ⟨_, .inl rfl, .inr (.inr (.inr (.inl ⟨rfl, _, rfl⟩)))⟩
        | exact ⟨_, .inr (.inl rfl), .inr (.inr (.inr (.inr (.inl ⟨rfl, _, rfl⟩))))⟩
        | exact ⟨_, .inr (.inl rfl), .inr (.inr (.inr (.inr (.inr ⟨.inr rfl, _, _, rfl⟩))))⟩
        | exact ⟨_, .inr (.inr rfl), .inr (.inr (.inr (.inr (.inr ⟨.inl rfl, _, _, rfl⟩))))⟩
        | exact ⟨_, .inl rfl, .inr (.inr (.inl ⟨_, rfl⟩))⟩
        | exact ⟨_, .inr (.inl rfl), .inr (.inr (.inl ⟨_, rfl⟩))⟩

/-- Every command ends in a next state: its errors are states (60_exceptions R200). -/
theorem exec_is_next (i : Instr) (s : State) : ∃ t, exec i s = .next t := by cases i <;> exact ⟨_, rfl⟩

/-- A word written to `CMD` always ends in a next state. -/
theorem runCommandWord_is_next (v : Word) (s : State) : ∃ t, runCommandWord v s = .next t := by
  unfold runCommandWord
  split
  · exact exec_is_next _ s
  · exact ⟨_, rfl⟩

theorem serve_command (v : Word) (s : State) : serve (.wr .reg 0 (.word v)) s = runCommandWord v s := rfl

/-- Everything serving a transaction can answer with a next state: a register or a buffer byte written, a command run, a
value returned, or a reset. -/
theorem serve_cases {t : Txn} {s u : State} (h : serve t s = .next u) :
    (∃ v, t = .wr .reg 0x00 (.word v) ∧ runCommandWord v s = .next u) ∨
    (∃ v, t = .wr .reg 0x0C (.word v) ∧ u = { s with pwlen := v }) ∨
    (∃ v, t = .wr .reg 0x10 (.word v) ∧ u = { s with inlen := v }) ∨
    (∃ off b, t = .wr .pw off (.byte b) ∧ off < s.params.pwMax ∧ u = { s with pwBuf := s.pwBuf.write off b }) ∨
    (∃ off b, t = .wr .inp off (.byte b) ∧ off < s.params.bufMax ∧ u = { s with inBuf := s.inBuf.write off b }) ∨
    (∃ space off w r, t = .rd space off w ∧ hostRead space off w s = .ok r ∧
      u = { s with returned := s.returned ++ [r] }) ∨
    (t = .reset ∧ u = zeroAll s) := by
  cases t with
  | wr space off v =>
    simp only [serve, hostWrite] at h
    split at h
    · simp only [writeRegister] at h
      split at h
      · exact .inl ⟨_, rfl, h⟩
      · cases h
      · cases h
      · cases h; exact .inr (.inl ⟨_, rfl, rfl⟩)
      · cases h; exact .inr (.inr (.inl ⟨_, rfl, rfl⟩))
      · cases h
      · cases h
    · cases h
    · cases h
    · cases h
    · split at h
      · cases h; exact .inr (.inr (.inr (.inl ⟨_, _, rfl, by assumption, rfl⟩)))
      · cases h
    · split at h
      · cases h; exact .inr (.inr (.inr (.inr (.inl ⟨_, _, rfl, by assumption, rfl⟩))))
      · cases h
    all_goals cases h
  | rd space off w =>
    simp only [serve] at h
    split at h
    · rename_i r hr
      cases h
      exact .inr (.inr (.inr (.inr (.inr (.inl ⟨_, _, _, r, rfl, hr, rfl⟩)))))
    · cases h
  | reset =>
    cases h
    exact .inr (.inr (.inr (.inr (.inr (.inr ⟨rfl, rfl⟩)))))

/-- A listed command word is what the next step runs. -/
@[simp] theorem withFetchWord_pending (s : State) (nbits w : Nat) :
    (s.withFetchWord nbits w).pending = .wr .reg 0x00 (.word (tableWord nbits w)) :: s.pending := rfl

end Sys2Proof.Machine
end

