-- ==== Sys2Proof/Tests/Slice0.lean ====
section
/-! SUPPORT. The model's own tests. Expected values are from spec/: the opcode map (30_encoding R72), the tables and worked
values of the rules, and the vectors of 95_test_vectors (V<n> below). Last, a witness for the hypotheses of each statement. -/

open Sys2Proof Sys2Proof.Machine

namespace Sys2Proof.Tests

/-! ### Decoding: the words of R72 bit by bit, and words that are no command (R74) -/

theorem test_decode_derive : decode 0b00000000000000000000000000000001#32 = .ok .derive := rfl
theorem test_decode_encrypt : decode 0b00000000000000000000000000000010#32 = .ok .encrypt := rfl
theorem test_decode_decrypt : decode 0b00000000000000000000000000000011#32 = .ok .decrypt := rfl
theorem test_decode_ldkey : decode 0b00000000000000000000000000000100#32 = .ok .ldkey := rfl
theorem test_decode_clear : decode 0b00000000000000000000000000000101#32 = .ok .clear := rfl
theorem test_decode_sha1 : decode 0b00000000000000000000000000010000#32 = .ok .sha1 := rfl
theorem test_decode_hmac : decode 0b00000000000000000000000000010001#32 = .ok .hmac := rfl
theorem test_decode_aesencb : decode 0b00000000000000000000000000100000#32 = .ok .aesencb := rfl
theorem test_decode_aesdecb : decode 0b00000000000000000000000000100001#32 = .ok .aesdecb := rfl
theorem test_decode_pad : decode 0b00000000000000000000000000110000#32 = .ok .pad := rfl
theorem test_decode_unpad : decode 0b00000000000000000000000000110001#32 = .ok .unpad := rfl

/-- V9.7. -/
theorem test_decode_unassigned :
    [0x06, 0x12, 0x22, 0x32, 0xff].map (fun n => decode (BitVec.ofNat 32 n)) =
      List.replicate 5 (.error .unassignedOp) := rfl

/-- V9.6, V9.7: a legal `OP` under a reserved bit, bit 8 and bit 31, and the word of ones. -/
theorem test_decode_reserved :
    [0x00000102, 0x80000005, 0xffffffff].map (fun n => decode (BitVec.ofNat 32 n)) =
      List.replicate 3 (.error .reservedBits) := rfl

theorem test_decodeTableWord :
    decodeTableWord 32 0x21 = some .aesdecb ∧ decodeTableWord 8 0x21 = some .aesdecb ∧
    decodeTableWord 32 0x121 = none := by decide

/-! ### Well-formedness: an ill-formed term for each check -/

theorem test_params_wf : Params.wf ⟨1, 64⟩ = true ∧ Params.wf ⟨2 ^ 32 - 1, 2 ^ 32 - 16⟩ = true := by decide
theorem test_params_refuses_pwMax_zero : Params.wf ⟨0, 64⟩ = false := by decide
theorem test_params_refuses_pwMax_large : Params.wf ⟨2 ^ 32, 64⟩ = false := by decide
theorem test_params_refuses_bufMax_small : Params.wf ⟨1, 48⟩ = false := by decide
theorem test_params_refuses_bufMax_large : Params.wf ⟨1, 2 ^ 32⟩ = false := by decide
theorem test_params_refuses_bufMax_unaligned : Params.wf ⟨1, 65⟩ = false := by decide

/-- R50 to R52, R55: the accesses that have no meaning. -/
theorem test_txn_refuses :
    [Txn.wr .reg 0x04 (.word 0), .wr .reg 0x14 (.word 0), .wr .reg 0x02 (.word 1), .wr .reg 0x18 (.word 0),
     .wr .reg 0x00 (.byte 1), .wr .pw 80 (.byte 0), .wr .pw 0 (.half 0), .wr .inp 128 (.byte 0), .wr .inp 0 (.word 0),
     .wr .out 0 (.byte 0), .wr .ivr 0 (.byte 0), .rd .reg 0x00 .word, .rd .reg 0x18 .word, .rd .reg 0x04 .byte,
     .rd .out 128 .byte, .rd .out 0 .word, .rd .ivr 16 .byte, .rd .ivr 0 .dword, .rd .pw 0 .byte, .rd .inp 0 .byte].all
      (fun t => t.wf ⟨80, 128⟩ == false) = true := by decide

/-- The canonical form refuses a listed zero, a repeated offset and a falling one. -/
theorem test_memory_wf :
    Memory.wf [(0, 1), (2, 3)] = true ∧ Memory.wf [(0, 0)] = false ∧ Memory.wf [(1, 1), (1, 2)] = false ∧
    Memory.wf [(2, 1), (1, 2)] = false ∧ Memory.within [(0, 1), (7, 3)] 7 = false := by decide

/-! ### Memory -/

theorem test_memory_write :
    Memory.write [(3, 7)] 1 5 = [(1, 5), (3, 7)] ∧ Memory.write [(3, 7)] 3 0 = [] ∧
    Memory.read [(1, 5), (3, 7)] 2 = 0 ∧ memRead (memWrite [] 4 [1, 2, 0, 3]) 3 6 = [0, 1, 2, 0, 3, 0] := by decide

/-! ### A small state, and the state after a command -/

/-- R35 with `PW_MAX` = 80 and `BUF_MAX` = 128, the least sizes 95_test_vectors asks for; `prim_fault` answers false. -/
def tState : State := { State.resetWith ⟨80, 128⟩ with primFaults := [false] }

/-- `tState` with an input loaded. -/
def tInput (b : Bytes) : State := { tState with inBuf := memWrite [] 0 b, inlen := BitVec.ofNat 32 b.length }

/-- `tInput` with a valid key. -/
def tKeyed (key b : Bytes) : State := { tInput b with key := toReg 32 key, keyv := true }

/-- The key `00 01 .. 1f` of V6.1. -/
def tKey : Bytes := (List.range 32).map (BitVec.ofNat 8)

/-- The bytes `00 01 .. 0f`, `iv1` of section 8. -/
def tIv : Bytes := (List.range 16).map (BitVec.ofNat 8)

/-- The blob of the empty plaintext of V8.8. -/
def tBlob : Bytes :=
  List.replicate 16 0 ++
    [0x1f, 0x78, 0x8f, 0xe6, 0xd8, 0x6c, 0x31, 0x75, 0x49, 0x69, 0x7f, 0xbf, 0x0c, 0x07, 0xfa, 0x43]

def after (i : Instr) (s : State) : State :=
  match exec i s with
  | .next t => t
  | .fault f => nomatch f
  | .refused _ => s

/-- `STATUS`, `ERR`, `OUTLEN` and the first `n` bytes of `OUT`. -/
def seen (n : Nat) (s : State) : Word × Word × Word × Bytes :=
  (statusWord s, errWord s, s.outlen, memRead s.outBuf 0 n)

/-! ### SHA-1, HMAC and PBKDF2 -/

/-- R95: the first word of round 0 of `"abc"`, and the round constants and functions of R91 and R92 at their borders. -/
theorem test_sha1_constants :
    [0, 19, 20, 39, 40, 59, 60, 79].map sha1K =
      [0x5A827999, 0x5A827999, 0x6ED9EBA1, 0x6ED9EBA1, 0x8F1BBCDC, 0x8F1BBCDC, 0xCA62C1D6, 0xCA62C1D6] ∧
    [19, 20, 40, 60].map (fun t => sha1F t 0b1100 0b1010 0b0110) = [0b1010, 0b0000, 0b1110, 0b0000] := by decide

/-- R96: the number of padding zeros at the block borders (V3.2, V3.4, V3.5, V3.6, V3.8). -/
theorem test_sha1_padding :
    [3, 55, 56, 64, 65].map sha1ZeroCount = [52, 0, 63, 55, 54] ∧
    be64 (8 * 3) = [0, 0, 0, 0, 0, 0, 0, 0x18] ∧ be64 (2 ^ 56 + 2) = [1, 0, 0, 0, 0, 0, 0, 2] := by decide

/-- V3.2. -/
theorem test_sha1_abc :
    seen 20 (after .sha1 (tInput [0x61, 0x62, 0x63])) =
      (0x01, 0, 20, [0xa9, 0x99, 0x3e, 0x36, 0x47, 0x06, 0x81, 0x6a, 0xba, 0x3e, 0x25, 0x71, 0x78, 0x50, 0xc2, 0x6c,
        0x9c, 0xd0, 0xd8, 0x9d]) := by decide +kernel

/-- V3.5: the shortest message of two blocks. -/
theorem test_sha1_two_blocks :
    sha1 (List.replicate 56 0x61) =
      [0xc2, 0xdb, 0x33, 0x0f, 0x60, 0x83, 0x85, 0x4c, 0x99, 0xd4, 0xb5, 0xbf, 0xb6, 0xe8, 0xf2, 0x9f, 0x20, 0x1b, 0xe6,
        0x99] := by decide +kernel

/-- V9.15: `INLEN` = `BUF_MAX` + 1. -/
theorem test_sha1_too_long : seen 0 (after .sha1 { tState with inlen := 129 }) = (0x02, 0x11, 0, []) := by decide

/-- V4.8, with the key in `PW` and the text in `IN`. -/
theorem test_hmac_correct_horse :
    seen 20 (after .hmac
      { tInput (saltBytes ++ pbkdf2Int 1) with
        pwlen := 13
        pwBuf := memWrite [] 0 [0x63, 0x6f, 0x72, 0x72, 0x65, 0x63, 0x74, 0x20, 0x68, 0x6f, 0x72, 0x73, 0x65] }) =
      (0x01, 0, 20, [0x3b, 0x3d, 0x1f, 0x2e, 0x78, 0x60, 0x49, 0xdf, 0xc7, 0xfe, 0x99, 0xbd, 0x83, 0x72, 0x7a, 0xff,
        0x41, 0x91, 0x28, 0xad]) := by decide +kernel

/-- R114: the check of `PWLEN`. -/
theorem test_hmac_too_long : seen 0 (after .hmac { tState with pwlen := 81 }) = (0x02, 0x11, 0, []) := by decide

/-- V5.b: two iterations, the second over the first with the password as the key. -/
theorem test_pbkdf2_two_iterations :
    pbkdf2 [0x70, 0x61, 0x73, 0x73, 0x77, 0x6f, 0x72, 0x64] [0x73, 0x61, 0x6c, 0x74] 2 20 =
      [0xea, 0x6c, 0x01, 0x4d, 0xc7, 0x2d, 0x6f, 0x8c, 0xcd, 0x1e, 0xd9, 0x2a, 0xce, 0x1d, 0x41, 0xf0, 0xd8, 0xde, 0x89,
        0x57] := by decide +kernel

/-- R121: the status of a `DERIVE` that succeeds. The key itself is V5.1's, of 10000 iterations: too long for a test. -/
theorem test_derive_done :
    statusWord (after .derive tState) = 0x11 ∧ (after .derive tState).primFaults = [] := by decide

/-- V9.17: `PWLEN` = `PW_MAX` + 1; no key is loaded and no oracle asked. -/
theorem test_derive_too_long :
    seen 0 (after .derive { tState with pwlen := 81 }) = (0x02, 0x11, 0, []) ∧
    (after .derive { tState with pwlen := 81 }).primFaults = [false] := by decide

/-! ### AES-256 -/

/-- R131, R132, R135. -/
theorem test_aes_bytes :
    xtime 0x57 = 0xae ∧ xtime 0xae = 0x47 ∧ gmul 0x57 0x13 = 0xfe ∧ sbox 0x53 = 0xed ∧ invSbox 0xed = 0x53 ∧
    rcon 1 = 0x01000000 ∧ rcon 7 = 0x40000000 ∧ rotWord 0x09cf4f3c = 0xcf4f3c09 := by decide

/-- R140, R142: rows move left by their index; the column `db 13 53 45` mixes to `8e 4d a1 bc`. -/
theorem test_aes_rounds :
    shiftRows tIv = [0, 5, 10, 15, 4, 9, 14, 3, 8, 13, 2, 7, 12, 1, 6, 11] ∧
    mixColumn 0xdb 0x13 0x53 0x45 = [0x8e, 0x4d, 0xa1, 0xbc] := by decide

/-- R137 with the key of V6.5: `RK[8]`, `RK[12]` and `RK[59]`. -/
theorem test_aes_key_schedule :
    let rk := keyExpansion [0x60, 0x3d, 0xeb, 0x10, 0x15, 0xca, 0x71, 0xbe, 0x2b, 0x73, 0xae, 0xf0, 0x85, 0x7d, 0x77, 0x81,
      0x1f, 0x35, 0x2c, 0x07, 0x3b, 0x61, 0x08, 0xd7, 0x2d, 0x98, 0x10, 0xa3, 0x09, 0x14, 0xdf, 0xf4]
    [rk.getD 8 0, rk.getD 12 0, rk.getD 59 0] = [0x9ba35411, 0xa8b09c1a, 0x706c631e] := by decide +kernel

/-- R152: the key loaded, no result bytes. -/
theorem test_ldkey :
    let t := after .ldkey { tInput tKey with outlen := 7 }
    statusWord t = 0x11 ∧ t.outlen = 0 ∧ t.key.toList = tKey ∧ t.primFaults = [false] := by decide

/-- Section 6: `INLEN` = 31 is fatal, and the flags are cleared. -/
theorem test_ldkey_bad_length : seen 0 (after .ldkey { tKeyed tKey [] with inlen := 31 }) = (0x03, 0x05, 0, []) := by decide

/-- V6.1. -/
theorem test_aesencb_fips197 :
    seen 16 (after .aesencb (tKeyed tKey
      [0x00, 0x11, 0x22, 0x33, 0x44, 0x55, 0x66, 0x77, 0x88, 0x99, 0xaa, 0xbb, 0xcc, 0xdd, 0xee, 0xff])) =
      (0x11, 0, 16, [0x8e, 0xa2, 0xb7, 0xca, 0x51, 0x67, 0x45, 0xbf, 0xea, 0xfc, 0x49, 0x90, 0x4b, 0x49, 0x60, 0x89]) := by
  decide +kernel

/-- Section 6: the length check stands before the key check. -/
theorem test_aesencb_errors :
    seen 0 (after .aesencb { tState with inlen := 17 }) = (0x02, 0x11, 0, []) ∧
    seen 0 (after .aesencb { tState with inlen := 16 }) = (0x03, 0x05, 0, []) := by decide

/-- V6.4. -/
theorem test_aesdecb_zero_block :
    seen 16 (after .aesdecb (tKeyed tKey (List.replicate 16 0))) =
      (0x11, 0, 16, [0x6d, 0x9f, 0x08, 0xeb, 0x2a, 0x2e, 0x27, 0x7a, 0xb4, 0x89, 0x84, 0xcf, 0xf1, 0xab, 0x9a, 0x09]) := by
  decide +kernel

/-! ### Padding -/

/-- V7.6, and V7.4's new block when the input is whole. -/
theorem test_pad :
    seen 16 (after .pad (tInput [0x68, 0x65, 0x6c, 0x6c, 0x6f, 0x20, 0x77, 0x6f, 0x72, 0x6c, 0x64])) =
      (0x01, 0, 16, [0x68, 0x65, 0x6c, 0x6c, 0x6f, 0x20, 0x77, 0x6f, 0x72, 0x6c, 0x64, 5, 5, 5, 5, 5]) ∧
    padBytes (List.replicate 16 0x41) = List.replicate 16 0x41 ++ List.replicate 16 0x10 := by decide +kernel

/-- R164: `INLEN` = `BUF_MAX` fits `IN`, its padded form does not fit `OUT`. -/
theorem test_pad_too_long : seen 0 (after .pad { tState with inlen := 128 }) = (0x02, 0x11, 0, []) := by decide

/-- V7.7, V7.8. -/
theorem test_unpad :
    seen 11 (after .unpad (tInput [0x68, 0x65, 0x6c, 0x6c, 0x6f, 0x20, 0x77, 0x6f, 0x72, 0x6c, 0x64, 5, 5, 5, 5, 5])) =
      (0x01, 0, 11, [0x68, 0x65, 0x6c, 0x6c, 0x6f, 0x20, 0x77, 0x6f, 0x72, 0x6c, 0x64]) ∧
    seen 0 (after .unpad (tInput (List.replicate 16 0x10))) = (0x01, 0, 0, []) := by decide +kernel

/-- V7.12 to V7.17. -/
theorem test_unpad_malformed :
    [List.replicate 16 0, List.replicate 15 0 ++ [0x11], List.replicate 14 2 ++ [1, 2],
     List.replicate 11 0 ++ [5, 5, 5, 4, 5], 0x0f :: List.replicate 15 0x10].all (fun b => unpadBytes b == none) = true ∧
    seen 0 (after .unpad (tInput (List.replicate 14 2 ++ [1, 2]))) = (0x02, 0x03, 0, []) ∧
    seen 0 (after .unpad tState) = (0x02, 0x02, 0, []) := by decide +kernel

/-! ### The pipeline -/

/-- V8.8, the empty plaintext: the blob, `STATUS` with both flags, and `IVR`. -/
theorem test_encrypt_empty :
    seen 32 (after .encrypt { tKeyed (List.replicate 32 0) [] with rngs := [.bytes (toReg 16 (List.replicate 16 0))] }) =
      (0x31, 0, 32, tBlob) := by decide +kernel

/-- V9.14, V9.16: a failing `rng`; a result too long by 16, with `rng` not asked. -/
theorem test_encrypt_errors :
    seen 0 (after .encrypt { tKeyed tKey [0x68, 0x69] with rngs := [.fail] }) = (0x03, 0x06, 0, []) ∧
    seen 0 (after .encrypt { tKeyed tKey [] with inlen := 112, rngs := [.fail] }) = (0x12, 0x11, 0, []) ∧
    (after .encrypt { tKeyed tKey [] with inlen := 112, rngs := [.fail] }).rngs = [.fail] := by decide

/-- V8.8 back again, as V8.4: an empty plaintext is a success. -/
theorem test_decrypt_empty :
    let t := after .decrypt { tKeyed (List.replicate 32 0) tBlob with iv := Vector.replicate 16 7 }
    (seen 0 t, t.iv.toList) = ((0x31, 0, 0, []), List.replicate 16 0) := by decide +kernel

/-- V9.1 to V9.4: the format errors before the key check. -/
theorem test_decrypt_errors :
    [15, 16, 17, 33, 32].map (fun n => seen 0 (after .decrypt { tState with inlen := n })) =
      [(0x02, 0x01, 0, []), (0x02, 0x02, 0, []), (0x02, 0x02, 0, []), (0x02, 0x02, 0, []), (0x03, 0x05, 0, [])] := by decide

/-- V9.10, V9.11. -/
theorem test_clear :
    after .clear { tKeyed tKey tIv with stage := .error, err := .integrity, outBuf := [(3, 9)], pwlen := 4 } = tState ∧
    after .clear { tState with stage := .fatal, err := .fatalKey } = { tState with stage := .fatal, err := .fatalKey } := by
  decide

/-- V9.13: after a fault the digest of the command before stays in `OUT`. -/
theorem test_prim_fault_keeps_out :
    let s := { tKeyed tKey [0x61] with stage := .done, outBuf := [(0, 0xa9)], outlen := 20, primFaults := [true] }
    seen 1 (after .sha1 s) = (0x03, 0x04, 0, [0xa9]) := by decide

/-! ### The step and the host port -/

/-- The state that a step leaves, and whether it refused. -/
def stepped (s : State) : State × Bool :=
  match step s with
  | .next t => (t, false)
  | .fault f => nomatch f
  | .refused _ => (s, true)

theorem test_step_command : stepped (tState.withFetchWord 32 0x05) = (after .clear tState, false) := by decide

/-- V9.5, and the same word in ERROR (V9.9). -/
theorem test_step_illegal :
    seen 0 (stepped (tState.withFetchWord 32 0)).1 = (0x02, 0x10, 0, []) ∧
    (stepped ({ tState with stage := .error, err := .integrity }.withFetchWord 32 0)).1 =
      { tState with stage := .error, err := .integrity } := by decide

/-- V9.8: the host's writes are accepted in ERROR. -/
theorem test_step_host_write :
    (stepped { tState with stage := .error, err := .integrity, pending := [Script.setInLen 3] }).1.inlen = 3 ∧
    (stepped { tState with stage := .fatal, pending := [Script.wrIn 127 0x61] }).1.inBuf = [(127, 0x61)] ∧
    (stepped { tState with pending := [Script.wrIn 128 0x61] }).2 = true := by decide

theorem test_step_read :
    (stepped { tState with keyv := true, stage := .done, pending := [Script.rdSt] }).1.returned = [.word 0x11] ∧
    (stepped { tState with iv := toReg 16 tIv, pending := [Script.rdIv 15] }).1.returned = [.byte 15] ∧
    (stepped { tState with pending := [.rd .pw 0 .byte] }).2 = true := by decide

/-- V9.12. -/
theorem test_step_reset :
    stepped { tKeyed tKey tIv with stage := .fatal, err := .fatalKey, pending := [.reset] } = (tState, false) := by decide

/-- R75, R76: `LOADIN "abc"` and `CMD SHA1` as the transactions of program P1. -/
theorem test_script_loadIn :
    Script.loadIn [0x61, 0x62, 0x63] ++ [Script.cmd .sha1] =
      [.wr .inp 0 (.byte 0x61), .wr .inp 1 (.byte 0x62), .wr .inp 2 (.byte 0x63), .wr .reg 0x10 (.word 3),
       .wr .reg 0x00 (.word 0x10)] := by decide

/-- R35: the state `State.reset`. -/
theorem test_reset :
    seen 16 State.reset = (0, 0, 0, List.replicate 16 0) ∧ State.reset.params.wf = true ∧
    State.reset.pwBuf.wf = true ∧ State.reset.inBuf.wf = true ∧ State.reset.outBuf.wf = true := by decide

/-! ### Witnesses: for each statement with hypotheses, states and operands that meet them all, clause by clause

`tState` has `PW_MAX` = 80 and `BUF_MAX` = 128. -/

theorem witness_DecodeOfEncodeIsTheCommand : Instr.derive.wf = true := by decide

theorem witness_OnlyTheElevenWordsDecode : decode 0x31 = .ok .unpad := rfl

theorem witness_StepRunsTheDecodedCommand :
    { tState with pending := [.wr .reg 0x00 (.word 0x10)] }.pending = .wr .reg 0x00 (.word 0x10) :: [] ∧
    decode 0x10 = .ok .sha1 := ⟨rfl, rfl⟩

theorem witness_IdleEngineKeepsAllState : tState.pending = [] := rfl

theorem witness_IllegalWordRaisesIllegalCmdOrIsIgnored :
    (∀ i, (0x102 : Word) ≠ encode i) ∧
    ∀ g ∈ [Stage.idle, .done, .error, .fatal], ∃ s : State,
      s.pending = .wr .reg 0x00 (.word 0x102) :: [] ∧ s.stage = g :=
  ⟨fun i => by cases i <;> decide, fun g _ => ⟨{ tState with pending := [Script.cmdw 0x102], stage := g }, rfl, rfl⟩⟩

theorem witness_LengthRegistersStoreAnyValueInEveryState :
    (∃ s : State, s.stage = .fatal ∧ s.pending = .wr .reg 0x0C (.word 0xffffffff) :: []) ∧
    (∃ s : State, s.stage = .fatal ∧ s.pending = .wr .reg 0x10 (.word 0xffffffff) :: []) :=
  ⟨⟨{ tState with stage := .fatal, pending := [Script.setPwLen 0xffffffff] }, rfl, rfl⟩,
   ⟨{ tState with stage := .fatal, pending := [Script.setInLen 0xffffffff] }, rfl, rfl⟩⟩

theorem witness_BufferWritesChangeOneByteInEveryState :
    tState.pwBuf.wf = true ∧ tState.inBuf.wf = true ∧
    { tState with pending := [Script.wrPw 79 0] }.pending = .wr .pw 79 (.byte 0) :: [] ∧ 79 < tState.params.pwMax ∧
    { tState with pending := [Script.wrIn 127 0xff] }.pending = .wr .inp 127 (.byte 0xff) :: [] ∧
    127 < tState.params.bufMax := by decide

theorem witness_ReadsReturnTheValueAndChangeNothing :
    (∀ t ∈ [Txn.rd .reg 0x04 .word, .rd .reg 0x08 .word, .rd .reg 0x0C .word, .rd .reg 0x10 .word, .rd .reg 0x14 .word,
        .rd .out 127 .byte, .rd .ivr 15 .byte], ∃ s : State, s.pending = t :: [] ∧ 127 < s.params.bufMax) ∧ 15 < 16 :=
  ⟨fun t _ => ⟨{ tState with pending := [t] }, rfl, (by decide : 127 < 128)⟩, by decide⟩

theorem witness_RefusedExactlyWhenTheAccessHasNoMeaning :
    ∃ s : State, s.pending = .rd .pw 0 .byte :: [] := ⟨{ tState with pending := [.rd .pw 0 .byte] }, rfl⟩

theorem witness_ResetEventGivesTheResetState :
    ∃ s : State, s.stage = .fatal ∧ s.pending = .reset :: [] :=
  ⟨{ tState with stage := .fatal, pending := [.reset] }, rfl, rfl⟩

theorem witness_FatalAndErrorIgnoreCommands :
    { tState with stage := .fatal }.stage = .fatal ∧ { tState with stage := .error }.stage = .error ∧
    Instr.sha1 ≠ .clear := by decide

theorem witness_FatalAbsorbsEveryRunWithoutReset :
    ∃ s t : State, s.stage = .fatal ∧ Txn.reset ∉ s.pending ∧ s.pending.length = 2 ∧ core.run 2 s = .next t :=
  ⟨{ tState with stage := .fatal, err := .fatalKey, pending := [Script.cmd .clear, Script.cmd .sha1] }, _,
    rfl, by decide, rfl, rfl⟩

theorem witness_ErrorKeepsTheFirstErrorUntilClearOrReset :
    ∃ s t : State, s.stage = .error ∧ Txn.reset ∉ s.pending ∧ Script.cmd .clear ∉ s.pending ∧ s.pending.length = 2 ∧
      core.run 2 s = .next t :=
  ⟨{ tState with stage := .error, err := .integrity, pending := [Script.cmdw 0, Script.cmd .sha1] }, _,
    rfl, by decide, by decide, rfl, rfl⟩

theorem witness_FailedCommandDoesItsErrorEntryOnly :
    (∃ s t : State, s.stage = .idle ∧ exec .sha1 s = .next t ∧ t.stage = .error) ∧
    (∃ s t : State, s.stage = .done ∧ exec .sha1 s = .next t ∧ t.stage = .fatal) :=
  ⟨⟨{ tState with inlen := 129 }, _, rfl, rfl, by decide⟩,
   ⟨{ tState with stage := .done, primFaults := [true] }, _, rfl, rfl, by decide⟩⟩

/-- The lengths one past the capacity, and 112, whose padded form fits `OUT` and whose blob does not. -/
theorem witness_OversizedLengthsRaiseLengthError :
    (let s := { tState with pwlen := 81, inlen := 129 }
     s.ready = true ∧ s.pwlen.toNat > s.params.pwMax ∧ s.inlen.toNat > s.params.bufMax ∧ s.inlen.toNat ≠ 16) ∧
    (let s := { tState with inlen := 112 }
     s.ready = true ∧ 16 + 16 * (s.inlen.toNat / 16 + 1) > s.params.bufMax) ∧
    (let s := { tState with inlen := 128 }
     s.ready = true ∧ 16 * (s.inlen.toNat / 16 + 1) > s.params.bufMax) := by decide

/-- The lengths around one block, and those the two alignment rules refuse. -/
theorem witness_MalformedLengthsRaiseFormatErrors :
    (∀ n ∈ [15, 16, 33, 0, 17], let s := { tState with inlen := BitVec.ofNat 32 n }
      s.ready = true ∧ s.inlen.toNat = n ∧ s.inlen.toNat ≤ s.params.bufMax) ∧
    15 < 16 ∧ (∀ n ∈ [16, 33], 16 ≤ n ∧ (n = 16 ∨ (n - 16) % 16 ≠ 0)) ∧ ∀ n ∈ [0, 17], n = 0 ∨ n % 16 ≠ 0 := by
  decide

/-- The lengths of each clause: of `LDKEY`, of the block commands, of `ENCRYPT` (the longest) and of `DECRYPT`. -/
theorem witness_MissingOrBadKeyIsFatal :
    (∀ n ∈ [0, 31, 33, 16, 111, 32, 128], let s := { tState with inlen := BitVec.ofNat 32 n }
      s.ready = true ∧ s.keyv = false ∧ s.inlen.toNat = n ∧ s.inlen.toNat ≤ s.params.bufMax) ∧
    (∀ n ∈ [0, 31, 33], n ≠ 32) ∧ 16 + 16 * (111 / 16 + 1) ≤ tState.params.bufMax ∧
    ∀ n ∈ [32, 128], 32 ≤ n ∧ n % 16 = 0 := by decide

theorem witness_PrimitiveFaultIsFatal :
    (let s := { tState with pwlen := 80, inlen := 16, keyv := true, primFaults := [true] }
     s.ready = true ∧ primFaultAnswer s = true ∧ s.pwlen.toNat ≤ s.params.pwMax ∧ s.keyv = true ∧ s.inlen.toNat = 16) ∧
    (let s := { tState with inlen := 111, keyv := true, primFaults := [true] }
     s.ready = true ∧ primFaultAnswer s = true ∧ s.keyv = true ∧
     16 + 16 * (s.inlen.toNat / 16 + 1) ≤ s.params.bufMax) ∧
    (let s := { tState with pwlen := 80, inlen := 128, keyv := true, primFaults := [true] }
     s.ready = true ∧ primFaultAnswer s = true ∧ s.pwlen.toNat ≤ s.params.pwMax ∧ s.inlen.toNat ≤ s.params.bufMax ∧
     s.keyv = true ∧ 32 ≤ s.inlen.toNat ∧ s.inlen.toNat % 16 = 0) := by decide

theorem witness_FailingRandomSourceIsFatal :
    let s := { tState with inlen := 111, keyv := true, rngs := [.fail] }
    s.ready = true ∧ 16 + 16 * (s.inlen.toNat / 16 + 1) ≤ s.params.bufMax ∧ s.keyv = true ∧
    primFaultAnswer s = false ∧ rngAnswer s = .fail := by decide

/-- V7.12, V7.13 and V7.16: a last byte 0, a last byte 17, and a wrong byte `p` places from the end. -/
theorem witness_MalformedPaddingFailsUnpad :
    ∀ b ∈ [List.replicate 16 0, List.replicate 15 0 ++ [0x11], 0x0f :: List.replicate 15 0x10],
      let s := tInput b
      s.ready = true ∧ s.inlen.toNat ≤ s.params.bufMax ∧ 0 < s.inlen.toNat ∧ s.inlen.toNat % 16 = 0 ∧
      (let p := (s.inBuf.read (s.inlen.toNat - 1)).toNat
       p = 0 ∨ 16 < p ∨ (p = 16 ∧ (s.inBuf.read (s.inlen.toNat - p)).toNat ≠ p)) := by decide +kernel

/-- A zero block under a zero IV and the key of V6.4: the decrypted block ends in 09 after 9a. -/
theorem witness_MalformedPaddingFailsDecrypt :
    let s := tKeyed tKey (List.replicate 32 0)
    s.ready = true ∧ s.inlen.toNat ≤ s.params.bufMax ∧ 32 ≤ s.inlen.toNat ∧ s.inlen.toNat % 16 = 0 ∧
    s.keyv = true ∧ primFaultAnswer s = false ∧
    unpadBytes (cbcDec (keyExpansion s.key.toList) (memRead s.inBuf 0 16)
      (memRead s.inBuf 16 (s.inlen.toNat - 16))) = none := by decide +kernel

/-- The longest password and the longest input, for this and the next two. -/
theorem witness_Sha1WritesTheDigest :
    let s := { tState with inlen := 128 }
    s.ready = true ∧ s.outBuf.wf = true ∧ s.inlen.toNat ≤ s.params.bufMax ∧ primFaultAnswer s = false := by decide

theorem witness_HmacWritesTheMac :
    let s := { tState with pwlen := 80, inlen := 128 }
    s.ready = true ∧ s.outBuf.wf = true ∧ s.pwlen.toNat ≤ s.params.pwMax ∧ s.inlen.toNat ≤ s.params.bufMax ∧
    primFaultAnswer s = false := by decide

theorem witness_DeriveLoadsAndCopiesTheKey :
    let s := { tState with pwlen := 80 }
    s.ready = true ∧ s.outBuf.wf = true ∧ s.pwlen.toNat ≤ s.params.pwMax ∧ primFaultAnswer s = false := by decide

theorem witness_LdkeyLoadsTheKey :
    let s := tInput tKey
    s.ready = true ∧ s.inlen.toNat = 32 ∧ 32 ≤ s.params.bufMax := by decide

theorem witness_BlockCommandsWriteOneBlock :
    let s := tKeyed tKey tIv
    s.ready = true ∧ s.outBuf.wf = true ∧ s.inlen.toNat = 16 ∧ s.keyv = true ∧ primFaultAnswer s = false := by decide

/-- The longest input of `ENCRYPT`, 111 bytes for 128. -/
theorem witness_EncryptWritesTheBlob :
    let s := { tKeyed tKey [] with inlen := 111, rngs := [.bytes (toReg 16 tIv)] }
    s.ready = true ∧ s.outBuf.wf = true ∧ 16 + 16 * (s.inlen.toNat / 16 + 1) ≤ s.params.bufMax ∧ s.keyv = true ∧
    primFaultAnswer s = false ∧ rngAnswer s = .bytes (toReg 16 tIv) := by decide

/-- V8.8 and V8.4: the blob of the empty plaintext. -/
theorem witness_DecryptWritesThePlaintext :
    let s := tKeyed (List.replicate 32 0) tBlob
    s.ready = true ∧ s.outBuf.wf = true ∧ s.inlen.toNat ≤ s.params.bufMax ∧ s.keyv = true ∧ primFaultAnswer s = false ∧
    decryptFn (memRead s.inBuf 0 s.inlen.toNat) s.key.toList = .ok [] := by decide +kernel

/-- The longest input of `PAD`, 127 bytes for 128. -/
theorem witness_PadWritesInputAndPadding :
    let s := { tState with inlen := 127 }
    s.ready = true ∧ s.outBuf.wf = true ∧ 16 * (s.inlen.toNat / 16 + 1) ≤ s.params.bufMax := by decide

/-- One byte of padding and sixteen (V7.9, V7.8). -/
theorem witness_UnpadWritesTheDataBeforeThePadding :
    ∀ c ∈ [(List.replicate 15 (0 : Byte), 1), ([], 16)],
      let s := tInput (c.1 ++ List.replicate c.2 (BitVec.ofNat 8 c.2))
      s.ready = true ∧ s.outBuf.wf = true ∧ s.inlen.toNat ≤ s.params.bufMax ∧ s.inlen.toNat % 16 = 0 ∧ 1 ≤ c.2 ∧
      c.2 ≤ 16 ∧ memRead s.inBuf 0 s.inlen.toNat = c.1 ++ List.replicate c.2 (BitVec.ofNat 8 c.2) := by decide +kernel

theorem witness_ClearGivesTheResetState :
    { tState with stage := .error }.stage ≠ .fatal ∧ { tState with stage := .fatal }.stage = .fatal := by decide

theorem witness_OnlyClearWritesTheHostsBuffersAndLengths :
    ∃ t, exec .derive tState = .next t ∧ Instr.derive ≠ .clear := ⟨_, rfl, by decide⟩

/-- A command outside every exception list of the statement, and no valid key or IV before it. -/
theorem witness_KeyAndIvAreWrittenByTheirCommandsOnly :
    (∃ t, exec .sha1 tState = .next t) ∧ tState.keyv = false ∧ tState.ivv = false := ⟨⟨_, rfl⟩, rfl, rfl⟩

/-- The bytes beyond the declared lengths differ: `PW[80)` and `IN[128)` at the largest lengths. -/
theorem witness_CommandsReadOnlyTheDeclaredPrefixes :
    let s := { tState with pwlen := 80, inlen := 127 }
    (∀ a, a < s.pwlen.toNat → Memory.read [(80, 1)] a = s.pwBuf.read a) ∧
    (∀ a, a < s.inlen.toNat → Memory.read [(127, 1)] a = s.inBuf.read a) ∧
    Instr.hmac ≠ .clear ∧ ∃ t, exec .hmac s = .next t :=
  ⟨by decide, by decide, by decide, _, rfl⟩

theorem witness_KeyAndPasswordHaveNoReadPath :
    ∃ s : State, s.pending = .rd .out 0 .byte :: [] := ⟨{ tState with pending := [.rd .out 0 .byte] }, rfl⟩

/-- The same password in two states that differ in all else. -/
theorem witness_DeriveDependsOnThePasswordAlone :
    let s := { tState with pwBuf := [(0, 0x78)], pwlen := 1 }
    let s' := { tKeyed tKey tIv with stage := .done, pwBuf := [(0, 0x78), (1, 0x79)], pwlen := 1 }
    s.ready = true ∧ s'.ready = true ∧ s.outBuf.wf = true ∧ s'.outBuf.wf = true ∧
    s.pwlen.toNat ≤ s.params.pwMax ∧ s'.pwlen.toNat ≤ s'.params.pwMax ∧
    primFaultAnswer s = false ∧ primFaultAnswer s' = false ∧
    memRead s.pwBuf 0 s.pwlen.toNat = memRead s'.pwBuf 0 s'.pwlen.toNat ∧
    (∃ t, exec .derive s = .next t) ∧ ∃ t, exec .derive s' = .next t :=
  ⟨rfl, rfl, rfl, rfl, by decide, by decide, rfl, rfl, by decide, ⟨_, rfl⟩, ⟨_, rfl⟩⟩

/-- The invariant holds of `tState`, and of it with a command waiting that the step runs. -/
theorem witness_StepKeepsTheInvariant :
    ∃ s t : State, s.Inv ∧ s.pending = [Script.cmd .ldkey] ∧ step s = .next t :=
  ⟨{ tState with pending := [Script.cmd .ldkey] }, _, by constructor <;> decide, rfl, rfl⟩

theorem witness_ResetMeetsTheInvariant : Params.wf ⟨80, 128⟩ = true := by decide

theorem witness_Sha1ScheduleRecurrence : (List.replicate 64 (0 : Byte)).length = 64 := by decide

theorem witness_Sha1MessagePadding : (List.replicate 55 (0x61 : Byte)).length < 2 ^ 61 := by decide

theorem witness_HmacKeysWithTheSameBlockAgree :
    (List.replicate 60 (0x6b : Byte)).length + 4 ≤ 64 ∧ 64 < (List.replicate 65 (0x6b : Byte)).length := by decide

theorem witness_Pbkdf2BlockIsTheXorOfTheChain : 1 ≤ 1 := by decide

/-- A key, and an index in each of the three ranges of R137, the first and the last. -/
theorem witness_KeyScheduleRecurrence :
    tKey.length = 32 ∧ 7 < 8 ∧ 8 ≤ 8 ∧ 59 < 60 ∧ 8 % 8 = 0 ∧ 12 % 8 = 4 ∧ 59 % 8 = 3 := by decide

theorem witness_MixColumnsAndItsInverseCancel : tIv.length = 16 := by decide

theorem witness_CipherAndInvCipherAreInversePermutations : tKey.length = 32 ∧ tIv.length = 16 := by decide

theorem witness_UnpadAcceptsExactlyWellFormedPadding :
    List.replicate 16 (0x10 : Byte) ≠ [] ∧ (List.replicate 16 (0x10 : Byte)).length % 16 = 0 := by decide

theorem witness_CbcDecryptionUndoesEncryption :
    tKey.length = 32 ∧ tIv.length = 16 ∧ (tIv ++ tIv).length % 16 = 0 := by decide

theorem witness_IvChangeFlipsTheFirstBlockOnly :
    tIv.length = 16 ∧ (List.replicate 16 (0 : Byte)).length = 16 ∧ tKey.length % 16 = 0 := by decide

theorem witness_BlockChangeReachesTheNextBlockOnly :
    tIv.length = 16 ∧ ([] : Bytes).length % 16 = 0 ∧ (List.replicate 16 (0 : Byte)).length = 16 ∧
    tKey.length % 16 = 0 := by decide

theorem witness_BlobLengthLawAndFraming : tKey.length = 32 ∧ tIv.length = 16 := by decide

theorem witness_DecryptFnUndoesEncryptFn : tKey.length = 32 ∧ (List.replicate 16 (0xff : Byte)).length = 16 := by decide

/-- The engine encrypts an empty plaintext (V8.8); then the host has copied the blob back. -/
theorem witness_DecryptCommandUndoesEncryptCommand :
    ∃ s t u : State, s.params.wf = true ∧ s.ready = true ∧ s.outBuf.wf = true ∧
      exec .encrypt s = .next t ∧ t.stage = .done ∧ u.params = s.params ∧ u.ready = true ∧ u.outBuf.wf = true ∧
      u.key = s.key ∧ u.keyv = true ∧ primFaultAnswer u = false ∧ u.inlen = t.outlen ∧
      ∀ a, a < t.outlen.toNat → u.inBuf.read a = t.outBuf.read a :=
  let s := { tKeyed (List.replicate 32 0) [] with rngs := [.bytes (toReg 16 (List.replicate 16 0))] }
  ⟨s, after .encrypt s, tKeyed (List.replicate 32 0) tBlob, by decide, by decide, by decide, rfl, by decide, by decide,
    by decide, by decide, by decide, by decide, by decide, by decide +kernel, by decide +kernel⟩

end Sys2Proof.Tests
end

section
/-! Lengths of the padding controller's and the CipherEngine's results (43_padding_cbc R160 to R169, 44_pipeline R181 to
R183). -/

namespace Sys2Proof.Machine

/-- `pad(M)` has the length that the length check of `PAD` computes (R160). -/
@[simp] theorem padBytes_length (m : Bytes) : (padBytes m).length = padLength m.length := by
  simp only [padBytes, List.length_append, List.length_replicate, padCount, padLength]
  omega

/-- The result of `unpad` is its input without the last bytes (R161). -/
theorem unpadBytes_length_le {x r : Bytes} (h : unpadBytes x = some r) : r.length ≤ x.length := by
  simp only [unpadBytes] at h
  split at h
  · cases h
  · split at h
    · cases h
    · cases h
      exact List.length_take_le' _ _

/-- Every block of `CBCENC` is 16 bytes (R168). -/
theorem cbcEncFrom_length (rk : List Word) (c : Bytes) (ms : List Bytes) :
    (cbcEncFrom rk c ms).length = 16 * ms.length := by
  induction ms generalizing c with
  | nil => rfl
  | cons m ms ih =>
    simp only [cbcEncFrom, List.length_append, cipher_length, ih, List.length_cons]
    omega

/-- Every block of `CBCDEC` is 16 bytes when the chaining values are (R169). -/
theorem cbcDecFrom_length (rk : List Word) {c : Bytes} (hc : c.length = 16) {ys : List Bytes}
    (hys : ∀ y ∈ ys, y.length = 16) : (cbcDecFrom rk c ys).length = 16 * ys.length := by
  induction ys generalizing c with
  | nil => rfl
  | cons y ys ih =>
    obtain ⟨hy, hys⟩ := List.forall_mem_cons.1 hys
    simp only [cbcDecFrom, List.length_append, xorBytes_length, invCipher_length, hc, ih hy hys, List.length_cons]
    omega

theorem cbcDec_length (rk : List Word) {iv : Bytes} (hiv : iv.length = 16) (y : Bytes) :
    (cbcDec rk iv y).length = 16 * (y.length / 16) := by
  rw [cbcDec, cbcDecFrom_length rk hiv fun _ => length_of_mem_pieces, pieces_length]

/-- The length of a blob (R181). -/
theorem encryptFn_length (p key : Bytes) {iv : Bytes} (hiv : iv.length = 16) :
    (encryptFn p key iv).length = encLength p.length := by
  have hpad := (padLength_bounds p.length).1
  rw [encryptFn, List.length_append, cbcEnc, cbcEncFrom_length, pieces_length, padBytes_length, hiv, encLength_eq]
  omega

/-- A decrypted blob is shorter than the blob (R183). -/
theorem decryptFn_length_le {z key r : Bytes} (h : decryptFn z key = .ok r) : r.length ≤ z.length := by
  simp only [decryptFn] at h
  split at h
  · cases h
  · split at h
    · cases h
    · split at h
      · cases h
      · next hshort _ _ r' hr =>
        cases h
        have hlen := unpadBytes_length_le hr
        rw [cbcDec_length _ (by rw [List.length_take]; omega), List.length_drop] at hlen
        omega

/-- A derived key is `DKLEN` bytes (41_hmac_pbkdf2 R119). -/
@[simp] theorem deriveKey_length (p : Bytes) : (deriveKey p).length = 32 := by
  unfold deriveKey
  exact pbkdf2_length _ _ _ _

end Sys2Proof.Machine
end

section
/-! What a command can change of the host's side (10_state R29, R31) and what asking an oracle can change, said once. -/

namespace Sys2Proof.Machine

/-- From `s` to `t` nothing of the host's side has changed: its buffers and their lengths, its transactions and the
values returned to it, and the parameters. -/
structure HostKept (s t : State) : Prop where
  params : t.params = s.params
  pending : t.pending = s.pending
  returned : t.returned = s.returned
  pwlen : t.pwlen = s.pwlen
  inlen : t.inlen = s.inlen
  pwBuf : t.pwBuf = s.pwBuf
  inBuf : t.inBuf = s.inBuf

/-- The questions of a command change nothing but the two oracles (00_scope R10). -/
theorem Asked.eq_with_oracles {s o : State} (h : Asked s o) :
    ∃ pf pn rs rn, o = { s with primFaults := pf, primAsked := pn, rngs := rs, rngAsked := rn } := by
  rcases h with rfl | rfl | rfl
  · exact ⟨_, _, _, _, rfl⟩
  · exact ⟨_, _, _, _, rfl⟩
  · exact ⟨_, _, _, _, rfl⟩

/-- No end of an accepted command reaches the host's side: neither the error entries nor the commits write it. -/
theorem Ended.hostKept {i : Instr} {o t : State} (h : Ended i o t) : HostKept o t := by
  rcases h with ⟨_, _, rfl⟩ | ⟨_, _, rfl⟩ | ⟨_, rfl⟩ | ⟨_, _, rfl⟩ | ⟨_, _, rfl⟩ | ⟨_, _, _, rfl⟩ <;>
    exact ⟨rfl, rfl, rfl, rfl, rfl, rfl, rfl⟩

/-- An accepted command keeps the host's side, from before its questions to its end. -/
theorem Asked.hostKept_of_ended {i : Instr} {s o t : State} (ho : Asked s o) (h : Ended i o t) : HostKept s t := by
  obtain ⟨_, _, _, _, rfl⟩ := ho.eq_with_oracles
  exact { h.hostKept with }

/-- A command but `CLEAR` keeps the host's side. -/
theorem exec_hostKept {i : Instr} {s t : State} (hi : i ≠ .clear) (h : exec i s = .next t) : HostKept s t := by
  rcases exec_cases h with ⟨rfl, -, -⟩ | ⟨hc, -, -⟩ | ⟨-, -, o, ho, he⟩
  · exact ⟨rfl, rfl, rfl, rfl, rfl, rfl, rfl⟩
  · exact absurd hc hi
  · exact ho.hostKept_of_ended he

end Sys2Proof.Machine
end

section
/-! Whatever a command writes to `OUT` lies inside it, and `OUTLEN` with it (10_state R36 (4), 60_exceptions R205). -/

namespace Sys2Proof.Machine

/-- `OUT` is in canonical form and inside its space, and `OUTLEN` is at most `BUF_MAX`. -/
structure OutFits (s : State) : Prop where
  wf : s.outBuf.wf = true
  within : s.outBuf.within s.params.bufMax = true
  outlen_le : s.outlen.toNat ≤ s.params.bufMax

namespace OutFits

variable {s : State}

theorem raiseError (h : OutFits s) (c : ErrCode) : OutFits (raiseError c s) := ⟨h.wf, h.within, Nat.zero_le _⟩

theorem raiseFatal (h : OutFits s) (c : ErrCode) : OutFits (raiseFatal c s) := ⟨h.wf, h.within, Nat.zero_le _⟩

/-- A result no longer than the capacity fits. -/
theorem writeResult (h : OutFits s) {v : Bytes} (hv : v.length ≤ s.params.bufMax) : OutFits (writeResult v s) where
  wf := memWrite_wf 0 v h.wf
  within := memWrite_within h.within (by rwa [Nat.zero_add])
  outlen_le := by
    rw [Sys2Proof.Machine.writeResult, BitVec.toNat_ofNat]
    exact (Nat.mod_le _ _).trans hv

theorem noResult (h : OutFits s) : OutFits (noResult s) := ⟨h.wf, h.within, Nat.zero_le _⟩

theorem succeed (h : OutFits s) : OutFits (succeed s) := { h with }

theorem primFaultAsked (h : OutFits s) : OutFits (primFaultAsked s) := { h with }

theorem rngWasAsked (h : OutFits s) : OutFits (rngWasAsked s) := { h with }

theorem loadKey (h : OutFits s) (v : Bytes) : OutFits (loadKey v s) := { h with }

theorem storeIv (h : OutFits s) (d : Vector Byte 16) : OutFits (storeIv d s) := { h with }

/-- A check: both what it raises and what follows it fit. -/
theorem check {c : Prop} [Decidable c] {a b : State} (ha : OutFits a) (hb : ¬c → OutFits b) :
    OutFits (if c then a else b) := by
  split
  · exact ha
  · next hc => exact hb hc

theorem accept (h : OutFits s) {run : State → State} (hrun : OutFits (run s)) : OutFits (accept s run) := by
  cases hr : s.ready with
  | true => rwa [accept_of_ready hr]
  | false => rwa [accept_of_not_ready hr]

theorem checkPrim (h : OutFits s) {run : State → State} (hrun : OutFits (run (Sys2Proof.Machine.primFaultAsked s))) :
    OutFits (checkPrim s run) := by
  rcases checkPrim_cases s run with ⟨-, e⟩ | ⟨-, e⟩ <;> rw [e]
  · exact h.primFaultAsked.raiseFatal _
  · exact hrun

theorem drawIv (h : OutFits s) {run : Vector Byte 16 → State → State}
    (hrun : ∀ d, OutFits (run d (Sys2Proof.Machine.rngWasAsked s))) : OutFits (drawIv s run) := by
  cases hd : rngAnswer s with
  | fail =>
    rw [drawIv_of_fail hd]
    exact h.rngWasAsked.raiseFatal _
  | bytes d =>
    rw [drawIv_of_bytes hd]
    exact hrun d

end OutFits
end Sys2Proof.Machine
end

section
/-! The result of every command fits `OUT`. -/

namespace Sys2Proof.Machine

/-- `BUF_MAX` is at least 64 bytes (00_scope R9). -/
theorem bufMax_ge_of_wf {p : Params} (h : p.wf = true) : 64 ≤ p.bufMax := by
  simp only [Params.wf, Bool.and_eq_true, decide_eq_true_eq] at h
  omega

/-- An input that passes the length check is no longer than a buffer (60_exceptions R205). -/
theorem inOperand_length_le {s : State} (h : ¬inTooLong s = true) : (inOperand s).length ≤ s.params.bufMax := by
  rwa [inTooLong_iff, Nat.not_lt, ← inOperand_length] at h

variable {s t : State}

/-- A digest is 20 bytes. -/
theorem execSha1_outFits (hs : OutFits s) (hcap : 64 ≤ s.params.bufMax) (h : execSha1 s = .next t) : OutFits t := by
  cases h
  exact hs.accept (.check (hs.raiseError _) fun _ =>
    hs.checkPrim (hs.primFaultAsked.writeResult ((sha1_length _).trans_le (.trans (by decide) hcap))).succeed)

/-- A MAC is 20 bytes. -/
theorem execHmac_outFits (hs : OutFits s) (hcap : 64 ≤ s.params.bufMax) (h : execHmac s = .next t) : OutFits t := by
  cases h
  exact hs.accept (.check (hs.raiseError _) fun _ =>
    hs.checkPrim (hs.primFaultAsked.writeResult ((hmac_length _ _).trans_le (.trans (by decide) hcap))).succeed)

/-- A derived key is 32 bytes. -/
theorem execDerive_outFits (hs : OutFits s) (hcap : 64 ≤ s.params.bufMax) (h : execDerive s = .next t) :
    OutFits t := by
  cases h
  exact hs.accept (.check (hs.raiseError _) fun _ => hs.checkPrim
    ((hs.primFaultAsked.loadKey _).writeResult ((deriveKey_length _).trans_le (.trans (by decide) hcap))).succeed)

/-- `LDKEY` has no result bytes. -/
theorem execLdkey_outFits (hs : OutFits s) (h : execLdkey s = .next t) : OutFits t := by
  cases h
  exact hs.accept (.check (hs.raiseError _) fun _ => .check (hs.raiseFatal _) fun _ => (hs.loadKey _).noResult.succeed)

/-- A block is 16 bytes. -/
theorem blockCommand_outFits {f : List Word → Bytes → Bytes} (hf : ∀ rk b, (f rk b).length = 16) (hs : OutFits s)
    (hcap : 64 ≤ s.params.bufMax) : OutFits (blockCommand f s) :=
  hs.accept (.check (hs.raiseError _) fun _ => .check (hs.raiseFatal _) fun _ =>
    hs.checkPrim (hs.primFaultAsked.writeResult ((hf _ _).trans_le (.trans (by decide) hcap))).succeed)

/-- The padded length has passed the length check. -/
theorem execPad_outFits (hs : OutFits s) (h : execPad s = .next t) : OutFits t := by
  cases h
  refine hs.accept (.check (hs.raiseError _) fun hlen => (hs.writeResult ?_).succeed)
  rw [padBytes_length, inOperand_length]
  simp only [Bool.or_eq_true, decide_eq_true_eq, not_or, Nat.not_lt] at hlen
  exact hlen.2

/-- The unpadded input is no longer than the input. -/
theorem execUnpad_outFits (hs : OutFits s) (h : execUnpad s = .next t) : OutFits t := by
  cases h
  refine hs.accept (.check (hs.raiseError _) fun hlen => .check (hs.raiseError _) fun _ => ?_)
  split
  · exact hs.raiseError _
  · next r hr => exact (hs.writeResult ((unpadBytes_length_le hr).trans (inOperand_length_le hlen))).succeed

/-- The blob's length has passed the length check. -/
theorem execEncrypt_outFits (hs : OutFits s) (h : execEncrypt s = .next t) : OutFits t := by
  cases h
  refine hs.accept (.check (hs.raiseError _) fun hlen => .check (hs.raiseFatal _) fun _ =>
    hs.checkPrim (hs.primFaultAsked.drawIv fun d => ((hs.primFaultAsked.rngWasAsked.storeIv d).writeResult ?_).succeed))
  rw [encryptFn_length _ _ d.length_toList, inOperand_length]
  simp only [Bool.or_eq_true, decide_eq_true_eq, not_or, Nat.not_lt] at hlen
  exact hlen.2

/-- The plaintext is no longer than the blob. -/
theorem execDecrypt_outFits (hs : OutFits s) (h : execDecrypt s = .next t) : OutFits t := by
  cases h
  refine hs.accept (.check (hs.raiseError _) fun hlen => .check (hs.raiseError _) fun _ =>
    .check (hs.raiseError _) fun _ => .check (hs.raiseFatal _) fun _ => hs.checkPrim ?_)
  have hasked := hs.primFaultAsked
  split
  · exact hasked.raiseError _
  · exact hasked.raiseError _
  · exact hasked.raiseError _
  · next r hr =>
    have hr : r.length ≤ s.params.bufMax := (decryptFn_length_le hr).trans (inOperand_length_le hlen)
    exact ((hasked.storeIv _).writeResult hr).succeed

/-- `CLEAR` empties `OUT`. -/
theorem execClear_outFits (hs : OutFits s) (h : execClear s = .next t) : OutFits t := by
  cases h
  by_cases hf : s.stage = .fatal
  · rwa [acceptClear_of_fatal hf]
  · rw [acceptClear_of_not_fatal hf]
    exact ⟨rfl, rfl, Nat.zero_le _⟩

/-- Every command leaves a result that fits `OUT`: the length checks bound the results that grow with the input, and the
others are at most 64 bytes. -/
theorem exec_outFits {i : Instr} (hs : OutFits s) (hp : s.params.wf = true) (h : exec i s = .next t) : OutFits t := by
  have hcap := bufMax_ge_of_wf hp
  cases i with
  | derive => exact execDerive_outFits hs hcap h
  | encrypt => exact execEncrypt_outFits hs h
  | decrypt => exact execDecrypt_outFits hs h
  | ldkey => exact execLdkey_outFits hs h
  | clear => exact execClear_outFits hs h
  | sha1 => exact execSha1_outFits hs hcap h
  | hmac => exact execHmac_outFits hs hcap h
  | aesencb => cases h; exact blockCommand_outFits cipher_length hs hcap
  | aesdecb => cases h; exact blockCommand_outFits invCipher_length hs hcap
  | pad => exact execPad_outFits hs h
  | unpad => exact execUnpad_outFits hs h

end Sys2Proof.Machine
end

section
/-! The invariant of the reachable states (10_state R36): it holds at reset, and every step keeps it. -/

namespace Sys2Proof.Machine

/-- The reset state meets the invariant when the parameters meet 00_scope R9. -/
theorem State.Inv.resetWith {p : Params} (hp : p.wf = true) : (State.resetWith p).Inv where
  params_wf := hp
  err_none := ⟨fun _ => rfl, fun _ => rfl⟩
  err_class := fun _ h => by cases h
  failed_outlen := fun _ => rfl
  fatal_flags := fun _ => ⟨rfl, rfl⟩
  outlen_le := Nat.zero_le _
  idle_clear := fun _ => ⟨rfl, rfl, rfl⟩
  pw_wf := ⟨rfl, rfl⟩
  in_wf := ⟨rfl, rfl⟩
  out_wf := ⟨rfl, rfl⟩

variable {s t : State}

theorem State.Inv.outFits (h : s.Inv) : OutFits s := ⟨h.out_wf.1, h.out_wf.2, h.outlen_le⟩

/-- The invariant does not speak of the oracles. -/
theorem State.Inv.of_asked {o : State} (h : s.Inv) (ho : Asked s o) : o.Inv := by
  obtain ⟨_, _, _, _, rfl⟩ := ho.eq_with_oracles
  exact { h with }

theorem State.Inv.zeroAll (h : s.Inv) : (zeroAll s).Inv := { State.Inv.resetWith h.params_wf with }

/-- The entry of a non-fatal error keeps the invariant. -/
theorem State.Inv.raiseError (h : s.Inv) {c : ErrCode} (hc : c.cls = some .error) : (raiseError c s).Inv :=
  { h with
    err_none := ⟨fun (e : c = .none) => absurd (e ▸ hc) (by decide), fun e => absurd e Bool.false_ne_true⟩
    err_class := fun _ hg => Option.some.inj (hc.symm.trans hg)
    failed_outlen := fun _ => rfl
    fatal_flags := fun e => by cases e
    outlen_le := Nat.zero_le _
    idle_clear := fun e => by cases e }

/-- The entry of a fatal error keeps the invariant. -/
theorem State.Inv.raiseFatal (h : s.Inv) {c : ErrCode} (hc : c.cls = some .fatal) : (raiseFatal c s).Inv :=
  { h with
    err_none := ⟨fun (e : c = .none) => absurd (e ▸ hc) (by decide), fun e => absurd e Bool.false_ne_true⟩
    err_class := fun _ hg => Option.some.inj (hc.symm.trans hg)
    failed_outlen := fun _ => rfl
    fatal_flags := fun _ => ⟨rfl, rfl⟩
    outlen_le := Nat.zero_le _
    idle_clear := fun e => by cases e }

/-- The success of a command keeps the invariant, if its result fits and it has left the host's side alone. -/
theorem State.Inv.succeed (h : s.Inv) (hk : HostKept s (succeed t)) (hfit : OutFits (succeed t)) : (succeed t).Inv where
  params_wf := hk.params ▸ h.params_wf
  err_none := ⟨fun _ => rfl, fun _ => rfl⟩
  err_class := fun _ hg => by cases hg
  failed_outlen := fun e => by cases e
  fatal_flags := fun e => by cases e
  outlen_le := hfit.outlen_le
  idle_clear := fun e => by cases e
  pw_wf := hk.pwBuf ▸ hk.params ▸ h.pw_wf
  in_wf := hk.inBuf ▸ hk.params ▸ h.in_wf
  out_wf := ⟨hfit.wf, hfit.within⟩

/-- Every command keeps the invariant. -/
theorem exec_inv {i : Instr} (hs : s.Inv) (h : exec i s = .next t) : t.Inv := by
  have hfit : OutFits t := exec_outFits hs.outFits hs.params_wf h
  rcases exec_cases h with ⟨rfl, -, -⟩ | ⟨-, -, rfl⟩ | ⟨hi, -, o, ho, he⟩
  · exact hs
  · exact hs.zeroAll
  · have hk : HostKept s t := exec_hostKept hi h
    rcases he with ⟨c, hc, rfl⟩ | ⟨c, hc, rfl⟩ | ⟨v, rfl⟩ | ⟨-, v, rfl⟩ | ⟨-, v, rfl⟩ | ⟨-, v, d, rfl⟩
    · exact (hs.of_asked ho).raiseError hc
    · exact (hs.of_asked ho).raiseFatal hc
    all_goals exact hs.succeed hk hfit

/-- A word written to `CMD` keeps the invariant: it is a command's, or raises `E_ILLEGAL_CMD` (30_encoding R74). -/
theorem runCommandWord_inv {w : Word} (hs : s.Inv) (h : runCommandWord w s = .next t) : t.Inv := by
  unfold runCommandWord at h
  split at h
  · exact exec_inv hs h
  · cases h
    cases hr : s.ready with
    | true => rw [illegalCommand_of_ready hr]; exact hs.raiseError rfl
    | false => rwa [illegalCommand_of_not_ready hr]

/-- Serving a transaction keeps the invariant. -/
theorem serve_inv {x : Txn} (hs : s.Inv) (h : serve x s = .next t) : t.Inv := by
  rcases serve_cases h with ⟨w, -, h⟩ | ⟨w, -, rfl⟩ | ⟨w, -, rfl⟩ | ⟨off, b, -, hoff, rfl⟩ | ⟨off, b, -, hoff, rfl⟩ |
    ⟨_, _, _, r, -, -, rfl⟩ | ⟨-, rfl⟩
  · exact runCommandWord_inv hs h
  · exact { hs with }
  · exact { hs with }
  · exact { hs with pw_wf := ⟨Memory.wf_write off b hs.pw_wf.1, Memory.within_write b hs.pw_wf.2 hoff⟩ }
  · exact { hs with in_wf := ⟨Memory.wf_write off b hs.in_wf.1, Memory.within_write b hs.in_wf.2 hoff⟩ }
  · exact { hs with }
  · exact hs.zeroAll

/-- A step keeps the invariant. -/
theorem step_inv (hs : s.Inv) (h : step s = .next t) : t.Inv := by
  cases hp : s.pending with
  | nil =>
    rw [step_nil hp] at h
    cases h
    exact hs
  | cons x rest =>
    rw [step_cons hp] at h
    exact serve_inv (s := { s with pending := rest }) { hs with } h

/-- Settles O40: each outcome of a step is one that keeps the invariant. -/
theorem stepKeepsTheInvariant : Obligations.StepKeepsTheInvariant := fun _ _ => step_inv

/-- Settles O41; the two parameters of `State.reset` meet 00_scope R9. -/
theorem resetMeetsTheInvariant : Obligations.ResetMeetsTheInvariant :=
  ⟨fun _ => State.Inv.resetWith, State.Inv.resetWith (by decide)⟩

end Sys2Proof.Machine
end

section
/-! Which commands write `KEY` and `IV` (10_state R21 to R23). -/

namespace Sys2Proof.Machine

/-- Only `DERIVE` and `LDKEY` end by loading `KEY`; the flag that no load sets can be cleared only. -/
theorem Ended.key_kept {i : Instr} {o t : State} (h : Ended i o t) (hd : i ≠ .derive) (hl : i ≠ .ldkey) :
    t.key = o.key ∧ (o.keyv = false → t.keyv = false) := by
  rcases h with ⟨_, _, rfl⟩ | ⟨_, _, rfl⟩ | ⟨_, rfl⟩ | ⟨hi, -⟩ | ⟨hi, -⟩ | ⟨-, _, _, rfl⟩
  · exact ⟨rfl, id⟩
  · exact ⟨rfl, fun _ => rfl⟩
  · exact ⟨rfl, id⟩
  · exact absurd hi hl
  · exact absurd hi hd
  · exact ⟨rfl, id⟩

/-- Only `ENCRYPT` and `DECRYPT` end by storing `IV`; the flag that no store sets can be cleared only. -/
theorem Ended.iv_kept {i : Instr} {o t : State} (h : Ended i o t) (he : i ≠ .encrypt) (hd : i ≠ .decrypt) :
    t.iv = o.iv ∧ (o.ivv = false → t.ivv = false) := by
  rcases h with ⟨_, _, rfl⟩ | ⟨_, _, rfl⟩ | ⟨_, rfl⟩ | ⟨-, _, rfl⟩ | ⟨-, _, rfl⟩ | ⟨hi, -⟩
  · exact ⟨rfl, id⟩
  · exact ⟨rfl, fun _ => rfl⟩
  · exact ⟨rfl, id⟩
  · exact ⟨rfl, id⟩
  · exact ⟨rfl, id⟩
  · exact absurd hi (not_or.2 ⟨he, hd⟩)

/-- Settles O35: no end of a command reaches the host's side, and `CLEAR` zeroes no more of it than the buffers and
their lengths. -/
theorem onlyClearWritesTheHostsBuffersAndLengths : Obligations.OnlyClearWritesTheHostsBuffersAndLengths := by
  intro s t i h
  by_cases hi : i = .clear
  · subst hi
    rcases exec_cases h with ⟨rfl, -, -⟩ | ⟨-, -, rfl⟩ | ⟨hc, -, -⟩
    · exact ⟨rfl, rfl, rfl, fun hc => absurd rfl hc⟩
    · exact ⟨rfl, rfl, rfl, fun hc => absurd rfl hc⟩
    · exact absurd rfl hc
  · have hk : HostKept s t := exec_hostKept hi h
    exact ⟨hk.params, hk.pending, hk.returned, fun _ => ⟨hk.pwlen, hk.inlen, hk.pwBuf, hk.inBuf⟩⟩

/-- Settles O36: an ignored command changes nothing, `CLEAR` clears the flags, and the ends of every other command are
those of `Ended`. -/
theorem keyAndIvAreWrittenByTheirCommandsOnly : Obligations.KeyAndIvAreWrittenByTheirCommandsOnly := by
  intro s t i h
  rcases exec_cases h with ⟨rfl, -, -⟩ | ⟨rfl, -, rfl⟩ | ⟨-, -, o, ho, he⟩
  · exact ⟨fun _ _ _ => rfl, fun _ _ => id, fun _ _ _ => rfl, fun _ _ => id⟩
  · exact ⟨fun _ _ hc => absurd rfl hc, fun _ _ _ => rfl, fun _ _ hc => absurd rfl hc, fun _ _ _ => rfl⟩
  · obtain ⟨_, _, _, _, rfl⟩ := ho.eq_with_oracles
    exact ⟨fun hd hl _ => (he.key_kept hd hl).1, fun hd hl => (he.key_kept hd hl).2,
      fun hen hde _ => (he.iv_kept hen hde).1, fun hen hde => (he.iv_kept hen hde).2⟩

end Sys2Proof.Machine
end

section
/-! FATAL is left by the reset event only (10_state R36 (6), 60_exceptions R211). -/

namespace Sys2Proof.Machine

/-- A property that every step keeps holds after any number of steps that end in a next state. -/
theorem core_run_keeps {P : State → Prop} (hstep : ∀ s t, P s → step s = .next t → P t) (n : Nat) {s t : State}
    (hs : P s) (h : core.run n s = .next t) : P t := by
  induction n generalizing s with
  | zero => cases h; exact hs
  | succ n ih =>
    simp only [Host.Core.run] at h
    split at h
    · next u hu => exact ih (hstep s u hs hu) h
    · cases h
    · cases h

/-- From `s` to `t` the commands' side of the engine has not changed: everything of it that the host cannot write. -/
structure EngineKept (s t : State) : Prop where
  stage : t.stage = s.stage
  err : t.err = s.err
  outlen : t.outlen = s.outlen
  key : t.key = s.key
  iv : t.iv = s.iv
  outBuf : t.outBuf = s.outBuf
  keyv : t.keyv = s.keyv
  ivv : t.ivv = s.ivv

theorem EngineKept.refl (s : State) : EngineKept s s := ⟨rfl, rfl, rfl, rfl, rfl, rfl, rfl, rfl⟩

theorem EngineKept.trans {s t u : State} (h : EngineKept s t) (h' : EngineKept t u) : EngineKept s u where
  stage := h'.stage.trans h.stage
  err := h'.err.trans h.err
  outlen := h'.outlen.trans h.outlen
  key := h'.key.trans h.key
  iv := h'.iv.trans h.iv
  outBuf := h'.outBuf.trans h.outBuf
  keyv := h'.keyv.trans h.keyv
  ivv := h'.ivv.trans h.ivv

/-- FATAL ignores every command, `CLEAR` among them (30_encoding R71). -/
theorem exec_of_fatal {s : State} (hf : s.stage = .fatal) (i : Instr) : exec i s = .next s := by
  obtain ⟨t, ht⟩ := exec_is_next i s
  rcases exec_cases ht with ⟨rfl, -, -⟩ | ⟨-, hnf, -⟩ | ⟨-, hr, -⟩
  · exact ht
  · exact absurd hf hnf
  · rw [(State.not_ready_iff s).2 (.inr hf)] at hr
    cases hr

/-- FATAL ignores every word written to `CMD`. -/
theorem runCommandWord_of_fatal {s : State} (hf : s.stage = .fatal) (w : Word) : runCommandWord w s = .next s := by
  unfold runCommandWord
  split
  · exact exec_of_fatal hf _
  · rw [illegalCommand_of_not_ready ((State.not_ready_iff s).2 (.inr hf))]

/-- In FATAL no transaction but the reset event changes the commands' side, and none the waiting transactions. -/
theorem serve_of_fatal {x : Txn} {s t : State} (hf : s.stage = .fatal) (hx : x ≠ .reset) (h : serve x s = .next t) :
    EngineKept s t ∧ t.pending = s.pending := by
  rcases serve_cases h with ⟨w, -, h⟩ | ⟨w, -, rfl⟩ | ⟨w, -, rfl⟩ | ⟨off, b, -, -, rfl⟩ | ⟨off, b, -, -, rfl⟩ |
    ⟨_, _, _, r, -, -, rfl⟩ | ⟨hr, -⟩
  · rw [runCommandWord_of_fatal hf] at h
    cases h
    exact ⟨.refl s, rfl⟩
  · exact ⟨{ EngineKept.refl s with }, rfl⟩
  · exact ⟨{ EngineKept.refl s with }, rfl⟩
  · exact ⟨{ EngineKept.refl s with }, rfl⟩
  · exact ⟨{ EngineKept.refl s with }, rfl⟩
  · exact ⟨{ EngineKept.refl s with }, rfl⟩
  · exact absurd hr hx

/-- What a run without reset keeps from the FATAL state `s₀` on. -/
def FatalSince (s₀ s : State) : Prop := EngineKept s₀ s ∧ Txn.reset ∉ s.pending

/-- A step from a FATAL state with no reset waiting keeps the commands' side, and brings no reset. -/
theorem step_fatalSince {s₀ s t : State} (hf : s₀.stage = .fatal) (hs : FatalSince s₀ s) (h : step s = .next t) :
    FatalSince s₀ t := by
  obtain ⟨hk, hr⟩ := hs
  cases hp : s.pending with
  | nil =>
    rw [step_nil hp] at h
    cases h
    exact ⟨hk, hr⟩
  | cons x rest =>
    rw [step_cons hp] at h
    rw [hp, List.mem_cons, not_or] at hr
    obtain ⟨hx, hrest⟩ := hr
    obtain ⟨hk', hp'⟩ := serve_of_fatal (s := { s with pending := rest }) (hk.stage.trans hf) (Ne.symm hx) h
    exact ⟨hk.trans { hk' with }, hp' ▸ hrest⟩

/-- Settles O15, by induction on the steps: each keeps the commands' side of the engine and brings no reset. -/
theorem fatalAbsorbsEveryRunWithoutReset : Obligations.FatalAbsorbsEveryRunWithoutReset := by
  intro n s t hf hr h
  obtain ⟨hk, -⟩ : FatalSince s t :=
    core_run_keeps (P := FatalSince s) (fun _ _ => step_fatalSince hf) n ⟨.refl s, hr⟩ h
  exact ⟨hk.stage.trans hf, hk.err, hk.outlen, hk.key, hk.iv, hk.outBuf, hk.keyv, hk.ivv⟩

end Sys2Proof.Machine
end

section
/-! The registers as the host reads them, field by field (10_state R27, R28), and the reset values (R35). -/

namespace Sys2Proof.Machine

theorem statusWord_stage (s : State) : (statusWord s).extractLsb' 0 2 = s.stage.code :=
  BitVec.extractLsb'_append_eq_right

theorem statusWord_reservedLow (s : State) : (statusWord s).extractLsb' 2 2 = 0 :=
  (BitVec.extractLsb'_append_eq_of_le (by decide)).trans BitVec.extractLsb'_append_eq_right

theorem statusWord_keyv (s : State) : (statusWord s).getLsbD 4 = s.keyv := by
  simp only [statusWord, BitVec.getLsbD_append]
  simp

theorem statusWord_ivv (s : State) : (statusWord s).getLsbD 5 = s.ivv := by
  simp only [statusWord, BitVec.getLsbD_append]
  simp

/-- The fields below the reserved bits 31:6 are shifted out one after the other. -/
theorem statusWord_reservedHigh (s : State) : (statusWord s).extractLsb' 6 26 = 0 := calc
  (statusWord s).extractLsb' 6 26
    = ((0 : BitVec 26) ++ BitVec.ofBool s.ivv ++ BitVec.ofBool s.keyv ++ (0 : BitVec 2)).extractLsb' 4 26 :=
      BitVec.extractLsb'_append_eq_of_le (by decide)
  _ = ((0 : BitVec 26) ++ BitVec.ofBool s.ivv ++ BitVec.ofBool s.keyv).extractLsb' 2 26 :=
      BitVec.extractLsb'_append_eq_of_le (by decide)
  _ = ((0 : BitVec 26) ++ BitVec.ofBool s.ivv).extractLsb' 1 26 := BitVec.extractLsb'_append_eq_of_le (by decide)
  _ = 0 := BitVec.extractLsb'_append_eq_left

theorem errWord_code (s : State) : (errWord s).extractLsb' 0 8 = s.err.code := BitVec.extractLsb'_append_eq_right

theorem errWord_reserved (s : State) : (errWord s).extractLsb' 8 24 = 0 := BitVec.extractLsb'_append_eq_left

/-- Settles O10, field by field. -/
theorem statusAndErrRegisterLayout : Obligations.StatusAndErrRegisterLayout := by
  intro s
  refine ⟨(statusWord_stage s).trans ?_, statusWord_reservedLow s, statusWord_keyv s, statusWord_ivv s,
    statusWord_reservedHigh s, (errWord_code s).trans ?_, errWord_reserved s⟩
  · cases s.stage <;> rfl
  · cases s.err <;> rfl

/-- Settles O13: the reset values of the registers by definition; an empty buffer reads as zeros. -/
theorem resetValuesOfTheEngine : Obligations.ResetValuesOfTheEngine := fun _ =>
  ⟨rfl, rfl, rfl, rfl, rfl, rfl, rfl, fun _ => Vector.getElem_replicate, fun _ => Vector.getElem_replicate,
    fun _ => rfl, fun _ => rfl, fun _ => rfl⟩

end Sys2Proof.Machine
end

section
/-! A command reads `PW` and `IN` below the declared lengths only (10_state R31, 20_memory R58): it does the same on a
state whose buffers were replaced by any that agree there. -/

namespace Sys2Proof.Machine

/-- The state with other host buffers. -/
def withHostBuffers (pw inp : Memory) (s : State) : State := { s with pwBuf := pw, inBuf := inp }

variable {pw inp : Memory} {s : State}

/-! ### The operands -/

/-- The buffers `pw` and `inp` hold the bytes that `s` declares. -/
structure AgreeOnOperands (pw inp : Memory) (s : State) : Prop where
  pw : ∀ a, a < s.pwlen.toNat → pw.read a = s.pwBuf.read a
  inp : ∀ a, a < s.inlen.toNat → inp.read a = s.inBuf.read a

theorem AgreeOnOperands.asked {o : State} (h : AgreeOnOperands pw inp s) (ho : Asked s o) :
    AgreeOnOperands pw inp o := by
  obtain ⟨_, _, _, _, rfl⟩ := ho.eq_with_oracles
  exact { h with }

theorem AgreeOnOperands.primFaultAsked (h : AgreeOnOperands pw inp s) : AgreeOnOperands pw inp (primFaultAsked s) :=
  h.asked (.inr (.inl rfl))

/-- `PW[0..PWLEN)` is the same. -/
theorem AgreeOnOperands.pwOperand_eq (h : AgreeOnOperands pw inp s) :
    pwOperand (withHostBuffers pw inp s) = pwOperand s :=
  memRead_congr fun k hk => by rw [Nat.zero_add]; exact h.pw k hk

/-- A run of bytes from the start of `IN` within `INLEN` is the same. -/
theorem AgreeOnOperands.memRead_inBuf (h : AgreeOnOperands pw inp s) {n : Nat} (hn : n ≤ inLength s) :
    memRead (withHostBuffers pw inp s).inBuf 0 n = memRead s.inBuf 0 n :=
  memRead_congr fun k hk => by rw [Nat.zero_add]; exact h.inp k (hk.trans_le hn)

/-- `IN[0..INLEN)` is the same. -/
theorem AgreeOnOperands.inOperand_eq (h : AgreeOnOperands pw inp s) :
    inOperand (withHostBuffers pw inp s) = inOperand s := h.memRead_inBuf le_rfl

/-! ### The shared operations: none of them reads the buffers -/

theorem commit_withHostBuffers (v : Bytes) :
    succeed (writeResult v (withHostBuffers pw inp s)) = withHostBuffers pw inp (succeed (writeResult v s)) := rfl

/-- A check that does not read the buffers. -/
theorem check_withHostBuffers {c : Prop} [Decidable c] {a a' b b' : State} (ha : a' = withHostBuffers pw inp a)
    (hb : ¬c → b' = withHostBuffers pw inp b) :
    (if c then a' else b') = withHostBuffers pw inp (if c then a else b) := by
  by_cases h : c
  · rw [if_pos h, if_pos h, ha]
  · rw [if_neg h, if_neg h, hb h]

theorem accept_withHostBuffers {run : State → State}
    (h : run (withHostBuffers pw inp s) = withHostBuffers pw inp (run s)) :
    accept (withHostBuffers pw inp s) run = withHostBuffers pw inp (accept s run) := by
  cases hr : s.ready with
  | true => rw [accept_of_ready hr, accept_of_ready (s := withHostBuffers pw inp s) hr, h]
  | false => rw [accept_of_not_ready hr, accept_of_not_ready (s := withHostBuffers pw inp s) hr]

theorem checkPrim_withHostBuffers {run : State → State}
    (h : run (withHostBuffers pw inp (primFaultAsked s)) = withHostBuffers pw inp (run (primFaultAsked s))) :
    checkPrim (withHostBuffers pw inp s) run = withHostBuffers pw inp (checkPrim s run) :=
  check_withHostBuffers (c := primFaultAnswer s = true) rfl fun _ => h

theorem drawIv_withHostBuffers {run : Vector Byte 16 → State → State}
    (h : ∀ d, run d (withHostBuffers pw inp (rngWasAsked s)) = withHostBuffers pw inp (run d (rngWasAsked s))) :
    drawIv (withHostBuffers pw inp s) run = withHostBuffers pw inp (drawIv s run) := by
  cases hr : rngAnswer s with
  | fail => rw [drawIv_of_fail hr, drawIv_of_fail (s := withHostBuffers pw inp s) hr]; rfl
  | bytes d => rw [drawIv_of_bytes hr, drawIv_of_bytes (s := withHostBuffers pw inp s) hr, ← h]; rfl

/-! ### The commands -/

/-- The outcome with other host buffers in its next state. -/
def outcomeWithHostBuffers (pw inp : Memory) : Host.Outcome State Fault Refusal → Host.Outcome State Fault Refusal
  | .next t => .next (withHostBuffers pw inp t)
  | .fault r => .fault r
  | .refused r => .refused r

theorem next_withHostBuffers {t t' : State} (h : t' = withHostBuffers pw inp t) :
    .next t' = outcomeWithHostBuffers pw inp (.next t) := congrArg _ h

theorem execSha1_withHostBuffers (h : AgreeOnOperands pw inp s) :
    execSha1 (withHostBuffers pw inp s) = outcomeWithHostBuffers pw inp (execSha1 s) := by
  refine next_withHostBuffers (accept_withHostBuffers (check_withHostBuffers rfl fun _ => checkPrim_withHostBuffers ?_))
  rw [h.primFaultAsked.inOperand_eq]
  exact commit_withHostBuffers _

theorem execHmac_withHostBuffers (h : AgreeOnOperands pw inp s) :
    execHmac (withHostBuffers pw inp s) = outcomeWithHostBuffers pw inp (execHmac s) := by
  refine next_withHostBuffers (accept_withHostBuffers (check_withHostBuffers rfl fun _ => checkPrim_withHostBuffers ?_))
  rw [h.primFaultAsked.pwOperand_eq, h.primFaultAsked.inOperand_eq]
  exact commit_withHostBuffers _

theorem execDerive_withHostBuffers (h : AgreeOnOperands pw inp s) :
    execDerive (withHostBuffers pw inp s) = outcomeWithHostBuffers pw inp (execDerive s) := by
  refine next_withHostBuffers (accept_withHostBuffers (check_withHostBuffers rfl fun _ => checkPrim_withHostBuffers ?_))
  rw [h.primFaultAsked.pwOperand_eq]
  rfl

theorem execLdkey_withHostBuffers (h : AgreeOnOperands pw inp s) :
    execLdkey (withHostBuffers pw inp s) = outcomeWithHostBuffers pw inp (execLdkey s) := by
  refine next_withHostBuffers (accept_withHostBuffers (check_withHostBuffers rfl fun _ =>
    check_withHostBuffers rfl fun hlen => ?_))
  rw [h.memRead_inBuf (not_not.1 hlen).ge]
  rfl

theorem blockCommand_withHostBuffers (f : List Word → Bytes → Bytes) (h : AgreeOnOperands pw inp s) :
    blockCommand f (withHostBuffers pw inp s) = withHostBuffers pw inp (blockCommand f s) := by
  refine accept_withHostBuffers (check_withHostBuffers rfl fun hlen => check_withHostBuffers rfl fun _ =>
    checkPrim_withHostBuffers ?_)
  rw [h.primFaultAsked.memRead_inBuf (not_not.1 hlen).ge]
  exact commit_withHostBuffers _

theorem execPad_withHostBuffers (h : AgreeOnOperands pw inp s) :
    execPad (withHostBuffers pw inp s) = outcomeWithHostBuffers pw inp (execPad s) := by
  refine next_withHostBuffers (accept_withHostBuffers (check_withHostBuffers rfl fun _ => ?_))
  rw [h.inOperand_eq]
  exact commit_withHostBuffers _

theorem execUnpad_withHostBuffers (h : AgreeOnOperands pw inp s) :
    execUnpad (withHostBuffers pw inp s) = outcomeWithHostBuffers pw inp (execUnpad s) := by
  refine next_withHostBuffers (accept_withHostBuffers (check_withHostBuffers rfl fun _ =>
    check_withHostBuffers rfl fun _ => ?_))
  rw [h.inOperand_eq]
  split <;> rfl

theorem execEncrypt_withHostBuffers (h : AgreeOnOperands pw inp s) :
    execEncrypt (withHostBuffers pw inp s) = outcomeWithHostBuffers pw inp (execEncrypt s) := by
  refine next_withHostBuffers (accept_withHostBuffers (check_withHostBuffers rfl fun _ =>
    check_withHostBuffers rfl fun _ => checkPrim_withHostBuffers (drawIv_withHostBuffers fun d => ?_)))
  rw [(h.asked (.inr (.inr rfl))).inOperand_eq]
  rfl

theorem execDecrypt_withHostBuffers (h : AgreeOnOperands pw inp s) :
    execDecrypt (withHostBuffers pw inp s) = outcomeWithHostBuffers pw inp (execDecrypt s) := by
  refine next_withHostBuffers (accept_withHostBuffers (check_withHostBuffers rfl fun _ =>
    check_withHostBuffers rfl fun _ => check_withHostBuffers rfl fun _ => check_withHostBuffers rfl fun _ =>
    checkPrim_withHostBuffers ?_))
  rw [h.primFaultAsked.inOperand_eq]
  have hkey : keyBytes (withHostBuffers pw inp (primFaultAsked s)) = keyBytes (primFaultAsked s) := rfl
  rw [hkey]
  split <;> rfl

/-- Settles O37: each command finds the same operands, so it takes the same checks and ends with the same results. -/
theorem commandsReadOnlyTheDeclaredPrefixes : Obligations.CommandsReadOnlyTheDeclaredPrefixes := by
  intro s t i pw inp hi hpw hinp h
  have ha : AgreeOnOperands pw inp s := ⟨hpw, hinp⟩
  suffices hout : exec i (withHostBuffers pw inp s) = outcomeWithHostBuffers pw inp (exec i s) by rwa [h] at hout
  cases i with
  | derive => exact execDerive_withHostBuffers ha
  | encrypt => exact execEncrypt_withHostBuffers ha
  | decrypt => exact execDecrypt_withHostBuffers ha
  | ldkey => exact execLdkey_withHostBuffers ha
  | clear => exact absurd rfl hi
  | sha1 => exact execSha1_withHostBuffers ha
  | hmac => exact execHmac_withHostBuffers ha
  | aesencb => exact next_withHostBuffers (blockCommand_withHostBuffers cipher ha)
  | aesdecb => exact next_withHostBuffers (blockCommand_withHostBuffers invCipher ha)
  | pad => exact execPad_withHostBuffers ha
  | unpad => exact execUnpad_withHostBuffers ha

end Sys2Proof.Machine
end

section
/-! The host port, access by access (20_memory R50 to R55): what each legal write and read does, what a read can return,
and that the accesses with a meaning are those a step serves. -/

namespace Sys2Proof.Machine

/-! ### Reads -/

theorem hostRead_reg (off : Nat) (s : State) : hostRead .reg off .word s = (readRegister off s).map .word := rfl

theorem hostRead_out_of_lt {s : State} {off : Nat} (h : off < s.params.bufMax) :
    hostRead .out off .byte s = .ok (.byte (s.outBuf.read off)) := if_pos h

theorem hostRead_ivr_of_lt (s : State) {off : Nat} (h : off < 16) :
    hostRead .ivr off .byte s = .ok (.byte s.iv[off]) := by
  have hiv : s.iv.toList.getD off 0 = s.iv[off] := by simp [List.getD_eq_getElem?_getD, h]
  rw [← hiv]
  exact if_pos h

/-- Every register a read returns the value of (R51). -/
theorem readRegister_cases {off : Nat} {s : State} {v : Word} (h : readRegister off s = .ok v) :
    (off = 0x04 ∧ v = statusWord s) ∨ (off = 0x08 ∧ v = errWord s) ∨ (off = 0x0C ∧ v = s.pwlen) ∨
    (off = 0x10 ∧ v = s.inlen) ∨ (off = 0x14 ∧ v = s.outlen) := by
  unfold readRegister at h
  split at h <;> cases h <;> simp

/-- Everything a read can return: a register's value, a byte of `OUT` or a byte of `IV`. -/
theorem hostRead_cases {space : Space} {off : Nat} {w : Width} {s : State} {r : Reply}
    (h : hostRead space off w s = .ok r) :
    (space = .reg ∧ w = .word ∧ ∃ v, readRegister off s = .ok v ∧ r = .word v) ∨
    (space = .out ∧ w = .byte ∧ off < s.params.bufMax ∧ r = .byte (s.outBuf.read off)) ∨
    (space = .ivr ∧ w = .byte ∧ ∃ h : off < 16, r = .byte s.iv[off]) := by
  cases space with
  | reg =>
    cases w with
    | word =>
      rw [hostRead_reg] at h
      cases hv : readRegister off s with
      | ok v =>
        rw [hv] at h
        cases h
        exact .inl ⟨rfl, rfl, v, rfl, rfl⟩
      | error e =>
        rw [hv] at h
        cases h
    | _ => cases h
  | out =>
    cases w with
    | byte =>
      by_cases hoff : off < s.params.bufMax
      · rw [hostRead_out_of_lt hoff] at h
        cases h
        exact .inr (.inl ⟨rfl, rfl, hoff, rfl⟩)
      · simp [hostRead, hoff] at h
    | _ => cases h
  | ivr =>
    cases w with
    | byte =>
      by_cases hoff : off < 16
      · rw [hostRead_ivr_of_lt s hoff] at h
        cases h
        exact .inr (.inr ⟨rfl, rfl, hoff, rfl⟩)
      · simp [hostRead, hoff] at h
    | _ => cases h
  | pw => cases h
  | inp => cases h

theorem serve_read {space : Space} {off : Nat} {w : Width} {s : State} {r : Reply}
    (h : hostRead space off w s = .ok r) :
    serve (.rd space off w) s = .next { s with returned := s.returned ++ [r] } := by simp [serve, h]

/-- A step that serves a read returns the value and changes nothing else. -/
theorem step_read {s : State} {rest : List Txn} {space : Space} {off : Nat} {w : Width} {r : Reply}
    (hr : hostRead space off w { s with pending := rest } = .ok r) (h : s.pending = .rd space off w :: rest) :
    step s = .next { s with pending := rest, returned := s.returned ++ [r] } :=
  (step_cons h).trans (serve_read hr)

/-- Settles O9: what each read returns, and that a step adds it to what the host has and changes nothing else. -/
theorem readsReturnTheValueAndChangeNothing : Obligations.ReadsReturnTheValueAndChangeNothing := fun _ _ _ =>
  ⟨step_read rfl, step_read rfl, step_read rfl, step_read rfl, step_read rfl,
    fun h hoff => step_read (hostRead_out_of_lt hoff) h, fun hoff h => step_read (hostRead_ivr_of_lt _ hoff) h⟩

/-! ### Writes -/

theorem hostWrite_pwlen (v : Word) (s : State) : hostWrite .reg 0x0C (.word v) s = .next { s with pwlen := v } := rfl

theorem hostWrite_inlen (v : Word) (s : State) : hostWrite .reg 0x10 (.word v) s = .next { s with inlen := v } := rfl

theorem hostWrite_pw_of_lt {s : State} {off : Nat} (b : Byte) (h : off < s.params.pwMax) :
    hostWrite .pw off (.byte b) s = .next { s with pwBuf := s.pwBuf.write off b } := if_pos h

theorem hostWrite_inp_of_lt {s : State} {off : Nat} (b : Byte) (h : off < s.params.bufMax) :
    hostWrite .inp off (.byte b) s = .next { s with inBuf := s.inBuf.write off b } := if_pos h

/-- A step that serves a write is the write, on the state with the transaction served. -/
theorem step_write {s : State} {rest : List Txn} {space : Space} {off : Nat} {v : Data}
    (h : s.pending = .wr space off v :: rest) : step s = hostWrite space off v { s with pending := rest } :=
  step_cons h

/-- Settles O7. -/
theorem lengthRegistersStoreAnyValueInEveryState : Obligations.LengthRegistersStoreAnyValueInEveryState :=
  fun _ v _ => ⟨fun h => (step_write h).trans (hostWrite_pwlen v _), fun h => (step_write h).trans (hostWrite_inlen v _)⟩

/-- Settles O8: the buffer after the write is `Memory.write`'s, which in a canonical buffer changes one byte. -/
theorem bufferWritesChangeOneByteInEveryState : Obligations.BufferWritesChangeOneByteInEveryState := by
  intro s off b rest hpw hin
  constructor
  · intro h hoff
    exact ⟨s.pwBuf.write off b, fun a => Memory.read_write hpw off a b, (step_write h).trans (hostWrite_pw_of_lt b hoff)⟩
  · intro h hoff
    exact ⟨s.inBuf.write off b, fun a => Memory.read_write hin off a b, (step_write h).trans (hostWrite_inp_of_lt b hoff)⟩

/-! ### Refusals -/

/-- A read that returns a value has a meaning. -/
theorem Txn.wf_of_hostRead_ok {space : Space} {off : Nat} {w : Width} {s : State} {r : Reply}
    (h : hostRead space off w s = .ok r) : (Txn.rd space off w).wf s.params = true := by
  rcases hostRead_cases h with ⟨rfl, rfl, v, hv, -⟩ | ⟨rfl, rfl, hoff, -⟩ | ⟨rfl, rfl, hoff, -⟩
  · rcases readRegister_cases hv with ⟨rfl, -⟩ | ⟨rfl, -⟩ | ⟨rfl, -⟩ | ⟨rfl, -⟩ | ⟨rfl, -⟩ <;> rfl
  · exact decide_eq_true hoff
  · exact decide_eq_true hoff

/-- A transaction that is served has a meaning. -/
theorem Txn.wf_of_serve_next {t : Txn} {s u : State} (h : serve t s = .next u) : t.wf s.params = true := by
  rcases serve_cases h with ⟨v, rfl, -⟩ | ⟨v, rfl, -⟩ | ⟨v, rfl, -⟩ | ⟨off, b, rfl, hoff, -⟩ | ⟨off, b, rfl, hoff, -⟩ |
    ⟨space, off, w, r, rfl, hr, -⟩ | ⟨rfl, -⟩
  · rfl
  · rfl
  · rfl
  · exact decide_eq_true hoff
  · exact decide_eq_true hoff
  · exact Txn.wf_of_hostRead_ok hr
  · rfl

/-- A transaction with a meaning is served. -/
theorem serve_is_next_of_wf {t : Txn} {s : State} (h : t.wf s.params = true) : ∃ u, serve t s = .next u := by
  unfold Txn.wf at h
  split at h
  case h_1 off v =>
    simp only [Bool.or_eq_true, decide_eq_true_eq] at h
    rcases h with (rfl | rfl) | rfl
    · exact runCommandWord_is_next v s
    · exact ⟨_, hostWrite_pwlen v s⟩
    · exact ⟨_, hostWrite_inlen v s⟩
  case h_2 off b => exact ⟨_, hostWrite_pw_of_lt b (of_decide_eq_true h)⟩
  case h_3 off b => exact ⟨_, hostWrite_inp_of_lt b (of_decide_eq_true h)⟩
  case h_4 => cases h
  case h_5 off =>
    simp only [Bool.or_eq_true, decide_eq_true_eq] at h
    rcases h with (((rfl | rfl) | rfl) | rfl) | rfl <;> exact ⟨_, rfl⟩
  case h_6 off => exact ⟨_, serve_read (hostRead_out_of_lt (of_decide_eq_true h))⟩
  case h_7 off => exact ⟨_, serve_read (hostRead_ivr_of_lt s (of_decide_eq_true h))⟩
  case h_8 => cases h
  case h_9 => exact ⟨_, rfl⟩

theorem serve_is_next_iff (t : Txn) (s : State) : (∃ u, serve t s = .next u) ↔ t.wf s.params = true :=
  ⟨fun ⟨_, h⟩ => Txn.wf_of_serve_next h, serve_is_next_of_wf⟩

/-- An outcome is a next state or a refusal: there is no fault. -/
theorem exists_refused_iff_not_next (o : Host.Outcome State Fault Refusal) :
    (∃ r, o = .refused r) ↔ ¬ ∃ u, o = .next u := by
  cases o with
  | next u => simp
  | fault r => cases r
  | refused r => simp

/-- Settles O11: a step is refused unless it serves its transaction, and it serves those with a meaning. -/
theorem refusedExactlyWhenTheAccessHasNoMeaning : Obligations.RefusedExactlyWhenTheAccessHasNoMeaning := by
  intro s t rest hp
  have hnext : (∃ u, step s = .next u) ↔ t.wf s.params = true := by
    rw [step_cons hp]
    exact serve_is_next_iff t { s with pending := rest }
  rw [exists_refused_iff_not_next, hnext, Bool.not_eq_true]

end Sys2Proof.Machine
end

section
/-! Format C (30_encoding R70, R72, R74): the decoder case by case, and that the encoder is its inverse. -/

namespace Sys2Proof

/-- A word is its two fields, so without reserved bits it is its `OP` as a number (R70). -/
theorem toNat_opField_of_rsv_zero {w : Word} (h : rsvField w = 0) : (opField w).toNat = w.toNat := by
  have hw : rsvField w ++ opField w = w :=
    (BitVec.extractLsb'_append_extractLsb'_eq_extractLsb' rfl).trans BitVec.extractLsb'_eq_self
  calc (opField w).toNat
    _ = (rsvField w ++ opField w).toNat := by rw [BitVec.toNat_append, h]; simp
    _ = w.toNat := congrArg BitVec.toNat hw

/-- Without reserved bits the whole word is looked up in the opcode map. -/
theorem decode_of_rsv_zero {w : Word} (h : rsvField w = 0) : decode w = decodeOp w.toNat := by
  rw [decode, if_neg (not_not.2 h), toNat_opField_of_rsv_zero h]

/-- A word with a reserved bit is no command, whatever its `OP`. -/
theorem decode_of_rsv_ne_zero {w : Word} (h : rsvField w ≠ 0) : decode w = .error .reservedBits := if_pos h

theorem rsvField_encode (i : Instr) : rsvField (encode i) = 0 := by cases i <;> rfl

/-- The opcode map gives a command exactly at the number of its word. -/
theorem decodeOp_eq_ok_iff {op : Nat} {i : Instr} : decodeOp op = .ok i ↔ op = (encode i).toNat := by
  constructor
  · intro h
    unfold decodeOp at h
    split at h <;> cases h <;> rfl
  · rintro rfl
    cases i <;> rfl

/-- The decoder gives a command exactly at its word. -/
theorem decode_eq_ok_iff {w : Word} {i : Instr} : decode w = .ok i ↔ w = encode i := by
  by_cases hr : rsvField w = 0
  · rw [decode_of_rsv_zero hr, decodeOp_eq_ok_iff, BitVec.toNat_inj]
  · have hne : w ≠ encode i := fun h => hr (h ▸ rsvField_encode i)
    simp [decode_of_rsv_ne_zero hr, hne]

@[simp] theorem decode_encode (i : Instr) : decode (encode i) = .ok i := decode_eq_ok_iff.2 rfl

/-- Settles O1; that the command is well formed is not used, for all are. -/
theorem decodeOfEncodeIsTheCommand : Obligations.DecodeOfEncodeIsTheCommand := fun i _ => decode_encode i

/-- Settles O2. -/
theorem onlyTheElevenWordsDecode : Obligations.OnlyTheElevenWordsDecode := fun _ _ => decode_eq_ok_iff.1

/-- Settles O3: the eleven words are those of the encoder; two of the others are not in the opcode map, and the third
has a reserved bit. -/
theorem wordsOfTheOpcodeMap : Obligations.WordsOfTheOpcodeMap :=
  ⟨decode_encode .derive, decode_encode .encrypt, decode_encode .decrypt, decode_encode .ldkey, decode_encode .clear,
    decode_encode .sha1, decode_encode .hmac, decode_encode .aesencb, decode_encode .aesdecb, decode_encode .pad,
    decode_encode .unpad, decode_of_rsv_zero rfl, decode_of_rsv_zero rfl, decode_of_rsv_ne_zero (by decide)⟩

end Sys2Proof
end

section
/-! Which command a word written to `CMD` runs, and which commands the gate ignores (30_encoding R71, 60_exceptions R211). -/

namespace Sys2Proof.Machine

theorem runCommandWord_of_decode_ok {w : Word} {i : Instr} (h : decode w = .ok i) (s : State) :
    runCommandWord w s = exec i s := by rw [runCommandWord, h]

/-- A step that serves a write to `CMD` runs the word, on the state with the transaction served. -/
theorem step_command {s : State} {w : Word} {rest : List Txn} (h : s.pending = .wr .reg 0x00 (.word w) :: rest) :
    step s = runCommandWord w { s with pending := rest } := (step_cons h).trans (serve_command w _)

/-- Settles O4. -/
theorem stepRunsTheDecodedCommand : Obligations.StepRunsTheDecodedCommand := fun _ _ _ _ hp hd =>
  (step_command hp).trans (runCommandWord_of_decode_ok hd _)

/-- In ERROR and FATAL every command but `CLEAR` is ignored. -/
theorem exec_of_not_ready {s : State} {i : Instr} (hr : s.ready = false) (hi : i ≠ .clear) : exec i s = .next s := by
  obtain ⟨t, ht⟩ := exec_is_next i s
  rcases exec_cases ht with ⟨rfl, -, -⟩ | ⟨hc, -, -⟩ | ⟨-, hready, -⟩
  · exact ht
  · exact absurd hc hi
  · rw [hr] at hready
    cases hready

/-- Settles O14. -/
theorem fatalAndErrorIgnoreCommands : Obligations.FatalAndErrorIgnoreCommands := fun s i =>
  ⟨fun hf => exec_of_fatal hf i, fun he hi => exec_of_not_ready ((State.not_ready_iff s).2 (.inl he)) hi⟩

end Sys2Proof.Machine
end

section
/-! A list that grows by one element a step: the shape of the SHA-1 message schedule (40_sha1 R93) and of the AES key
schedule (42_aes R137). -/

namespace Sys2Proof.Machine

variable {α : Type}

/-- `n` elements more behind `w`, each computed by `g` from the list so far and its own number. -/
def growList (g : List α → Nat → α) (w : List α) (n : Nat) : List α :=
  (List.range n).foldl (fun w k => w ++ [g w k]) w

theorem growList_succ (g : List α → Nat → α) (w : List α) (n : Nat) :
    growList g w (n + 1) = growList g w n ++ [g (growList g w n) n] := by
  simp only [growList, List.range_succ, List.foldl_append, List.foldl_cons, List.foldl_nil]

@[simp] theorem growList_length (g : List α → Nat → α) (w : List α) (n : Nat) :
    (growList g w n).length = w.length + n := by
  induction n with
  | zero => rfl
  | succ n ih => rw [growList_succ, List.length_append, ih, List.length_singleton, Nat.add_assoc]

/-- An element that is in the list stays as it is while the list grows. -/
theorem growList_getD_of_le (g : List α → Nat → α) (w : List α) (d : α) {i m n : Nat} (hi : i < w.length + m)
    (hmn : m ≤ n) : (growList g w n).getD i d = (growList g w m).getD i d := by
  induction n, hmn using Nat.le_induction with
  | base => rfl
  | succ n hmn ih =>
    rw [growList_succ, List.getD_append _ _ _ _ (by rw [growList_length]; omega), ih]

/-- The elements of the list it grows from. -/
theorem growList_getD_of_lt (g : List α → Nat → α) (w : List α) (d : α) {i : Nat} (n : Nat) (hi : i < w.length) :
    (growList g w n).getD i d = w.getD i d := growList_getD_of_le g w d hi (Nat.zero_le n)

/-- Element `k` of the new ones is what `g` computed at step `k`. -/
theorem growList_getD_add (g : List α → Nat → α) (w : List α) (d : α) {k n : Nat} (hk : k < n) :
    (growList g w n).getD (w.length + k) d = g (growList g w k) k := by
  rw [growList_getD_of_le g w d (Nat.lt_succ_self (w.length + k)) hk, growList_succ,
    List.getD_append_right _ _ _ _ (growList_length g w k).le]
  simp

end Sys2Proof.Machine
end

section
/-! The big-endian words of a byte string (00_scope R13), as the two schedules load them. -/

namespace Sys2Proof.Machine

/-- Word `t` of a string is made of its bytes `4t` to `4t + 3`, the first the most significant. -/
theorem beWord_pieces_getD {b : Bytes} {t : Nat} (ht : t < b.length / 4) :
    ((pieces 4 b).map beWord).getD t 0 =
      b.getD (4 * t) 0 ++ b.getD (4 * t + 1) 0 ++ b.getD (4 * t + 2) 0 ++ b.getD (4 * t + 3) 0 := by
  have hword : ((pieces 4 b).map beWord).getD t 0 = beWord ((pieces 4 b).getD t []) :=
    List.getD_map _ [] beWord
  have hbyte : ∀ i < 4, ((b.drop (4 * t)).take 4).getD i 0 = b.getD (4 * t + i) 0 := fun i hi => by
    simp [List.getD_eq_getElem?_getD, List.getElem?_take_of_lt hi]
  rw [hword, pieces_getD ht, beWord, hbyte 0 (by decide), hbyte 1 (by decide), hbyte 2 (by decide), hbyte 3 (by decide)]
  rfl

end Sys2Proof.Machine
end

section
/-! The SHA-1 message schedule (40_sha1 R93). -/

namespace Sys2Proof.Machine

/-- `ROTL^n` is the rotation of the word (00_scope R12). -/
theorem rotl_eq_rotateLeft {n : Nat} (hn : n < 32) (x : Word) : rotl n x = x.rotateLeft n := by
  rw [BitVec.rotateLeft_def, Nat.mod_eq_of_lt hn, rotl]

/-- The word that a step of the schedule appends, `W[k + 16]` (R93). -/
def sha1NextWord (w : List Word) (k : Nat) : Word :=
  rotl 1 (w.getD (k + 13) 0 ^^^ w.getD (k + 8) 0 ^^^ w.getD (k + 2) 0 ^^^ w.getD k 0)

/-- The schedule grows from the sixteen words of the block. -/
theorem sha1Sched_eq_growList (b : Bytes) : sha1Sched b = growList sha1NextWord ((pieces 4 b).map beWord) 64 := rfl

/-- A block is sixteen words. -/
theorem blockWords_length {b : Bytes} (hb : b.length = 64) : ((pieces 4 b).map beWord).length = 16 := by
  rw [List.length_map, pieces_length, hb]

theorem sha1Sched_length {b : Bytes} (hb : b.length = 64) : (sha1Sched b).length = 80 := by
  rw [sha1Sched_eq_growList, growList_length, blockWords_length hb]

/-- The first sixteen words are the block's. -/
theorem sha1Sched_getD_of_lt {b : Bytes} (hb : b.length = 64) {t : Nat} (ht : t < 16) :
    (sha1Sched b).getD t 0 =
      b.getD (4 * t) 0 ++ b.getD (4 * t + 1) 0 ++ b.getD (4 * t + 2) 0 ++ b.getD (4 * t + 3) 0 := by
  rw [sha1Sched_eq_growList, growList_getD_of_lt _ _ _ _ (by rwa [blockWords_length hb])]
  exact beWord_pieces_getD (by rwa [hb])

/-- A new word depends on the sixteen words before it only. -/
theorem sha1NextWord_congr {w w' : List Word} {k : Nat} (h : ∀ i < 16, w.getD (k + i) 0 = w'.getD (k + i) 0) :
    sha1NextWord w k = sha1NextWord w' k := by
  have hfirst : w.getD k 0 = w'.getD k 0 := h 0 (by decide)
  rw [sha1NextWord, h 13 (by decide), h 8 (by decide), h 2 (by decide), hfirst, sha1NextWord]

/-- `W[k + 16]` by the words before it, which the later steps leave as they are. -/
theorem sha1Sched_getD_add {b : Bytes} (hb : b.length = 64) {k : Nat} (hk : k < 64) :
    (sha1Sched b).getD (k + 16) 0 = sha1NextWord (sha1Sched b) k := by
  have hlen := blockWords_length hb
  calc (sha1Sched b).getD (k + 16) 0
      = sha1NextWord (growList sha1NextWord ((pieces 4 b).map beWord) k) k := by
        rw [Nat.add_comm, ← hlen]
        exact growList_getD_add _ _ _ hk
    _ = sha1NextWord (sha1Sched b) k :=
        sha1NextWord_congr fun i hi => (growList_getD_of_le _ _ _ (by omega) hk.le).symm

/-- Settles O42: the first words are kept while the schedule grows, and the others are what their step appended. -/
theorem sha1ScheduleRecurrence : Obligations.Sha1ScheduleRecurrence := by
  intro b hb
  refine ⟨sha1Sched_length hb, fun t ht => sha1Sched_getD_of_lt hb ht, fun t h16 h80 => ?_⟩
  obtain ⟨k, rfl⟩ := Nat.exists_eq_add_of_le' h16
  dsimp only
  rw [sha1Sched_getD_add hb (by omega), sha1NextWord, rotl_eq_rotateLeft (by decide), Nat.add_sub_cancel]
  rfl

end Sys2Proof.Machine
end

section
/-! The SHA-1 message padding (40_sha1 R96). -/

namespace Sys2Proof.Machine

/-- The first `k` bytes of `be64 n`, read big-endian, are `n` without its `8 - k` last bytes. -/
theorem be64_prefix_foldl {n k : Nat} (hn : n < 2 ^ 64) (hk : k ≤ 8) :
    ((List.range k).map fun i => BitVec.ofNat 8 (n / 256 ^ (7 - i))).foldl (fun a b => 256 * a + b.toNat) 0 =
      n / 256 ^ (8 - k) := by
  induction k with
  | zero => exact (Nat.div_eq_of_lt hn).symm
  | succ k ih =>
    have hpow : 256 ^ (8 - k) = 256 ^ (7 - k) * 256 := by rw [← Nat.pow_succ, ← Nat.succ_sub (by omega)]
    rw [List.range_succ, List.map_append, List.foldl_append, ih (by omega), hpow, ← Nat.div_div_eq_div_mul,
      Nat.add_sub_add_right 7 1 k]
    exact Nat.div_add_mod _ 256

/-- `be64` is the big-endian representation of a number below 2^64 (00_scope R13). -/
theorem be64_foldl {n : Nat} (hn : n < 2 ^ 64) : (be64 n).foldl (fun a b => 256 * a + b.toNat) 0 = n :=
  (be64_prefix_foldl hn le_rfl).trans (Nat.div_one n)

/-- The padded message is a whole number of blocks: the zero bytes bring it to 56 modulo 64, and the length field
completes the last block. -/
theorem sha1PadMsg_length (m : Bytes) : (sha1PadMsg m).length = 64 * ((m.length + 8) / 64 + 1) := by
  obtain ⟨hlt, hmod⟩ := sha1ZeroCount_spec m.length
  simp only [sha1PadMsg, List.length_append, List.length_singleton, List.length_replicate, be64_length]
  omega

/-- Settles O43. -/
theorem sha1MessagePadding : Obligations.Sha1MessagePadding := fun m hm =>
  ⟨sha1PadMsg_length m, sha1ZeroCount m.length, be64 (8 * m.length), (sha1ZeroCount_spec m.length).1, be64_length _,
    be64_foldl (by omega), rfl⟩

end Sys2Proof.Machine
end

section
/-! The command `SHA1` when it completes (40_sha1 R101). -/

namespace Sys2Proof.Machine

/-- The end of a primitive command with the result `v`: what it writes, and that the rest is as before (30_encoding R71). -/
theorem succeed_writeResult_primFaultAsked (v : Bytes) (s : State) :
    succeed (writeResult v (primFaultAsked s)) = { s with
      outBuf := memWrite s.outBuf 0 v, outlen := BitVec.ofNat 32 v.length, stage := .done, err := .none,
      primFaults := s.primFaults.tail, primAsked := s.primAsked + 1 } := rfl

/-- With every check passed, `SHA1` writes the digest and succeeds, on the state with `prim_fault` asked. -/
theorem exec_sha1_of_checks {s : State} (hr : s.ready = true) (hlen : s.inlen.toNat ≤ s.params.bufMax)
    (hp : primFaultAnswer s = false) :
    exec .sha1 s = .next (succeed (writeResult (sha1 (inOperand s)) (primFaultAsked s))) := by
  rw [exec, execSha1, accept_of_ready hr, if_neg (by simp [inTooLong_of_le hlen]), checkPrim_of_false hp,
    inOperand_primFaultAsked]

/-- Settles O25. -/
theorem sha1WritesTheDigest : Obligations.Sha1WritesTheDigest := by
  intro s hr hwf hlen hp
  refine ⟨memWrite s.outBuf 0 (sha1 (inOperand s)), memWrite_holdsResult hwf _, ?_⟩
  rw [exec_sha1_of_checks hr hlen hp, succeed_writeResult_primFaultAsked, sha1_length, BitVec.ofNat_eq_ofNat]

end Sys2Proof.Machine
end

section
/-! HMAC keys with the same key block (41_hmac_pbkdf2 R111, R112). -/

namespace Sys2Proof.Machine

/-- `HMAC` reads the key through `K0` only. -/
theorem hmac_congr_hmacK0 {k k' : Bytes} (h : hmacK0 k = hmacK0 k') (text : Bytes) : hmac k text = hmac k' text := by
  rw [hmac, h, ← hmac]

/-- A key of at most a block is zero-padded to the block. -/
theorem hmacK0_of_le {k : Bytes} (h : k.length ≤ 64) : hmacK0 k = k ++ List.replicate (64 - k.length) 0 := by
  rw [hmacK0, if_neg (Nat.not_lt.2 h)]

/-- A key longer than a block is hashed, and the digest zero-padded to the block. -/
theorem hmacK0_of_gt {k : Bytes} (h : 64 < k.length) :
    hmacK0 k = sha1 k ++ List.replicate (64 - (sha1 k).length) 0 := by
  rw [hmacK0, if_pos h]

/-- Zero bytes behind a key are part of the padding it gets. -/
theorem hmacK0_append_zeros {k : Bytes} {n : Nat} (h : k.length + n ≤ 64) :
    hmacK0 (k ++ List.replicate n 0) = hmacK0 k := by
  have hlen : (k ++ List.replicate n 0).length = k.length + n := by simp
  have hzeros : n + (64 - (k.length + n)) = 64 - k.length := by omega
  rw [hmacK0_of_le (hlen.trans_le h), hmacK0_of_le (by omega), hlen, List.append_assoc,
    List.replicate_append_replicate, hzeros]

/-- A long key and its digest, which is 20 bytes, have the same block. -/
theorem hmacK0_sha1 {k : Bytes} (h : 64 < k.length) : hmacK0 (sha1 k) = hmacK0 k := by
  rw [hmacK0_of_gt h, hmacK0_of_le ((sha1_length k).trans_le (by decide))]

/-- Settles O44: the keys of each pair have the same block. -/
theorem hmacKeysWithTheSameBlockAgree : Obligations.HmacKeysWithTheSameBlockAgree :=
  ⟨fun _ text _ h => hmac_congr_hmacK0 (hmacK0_append_zeros h) text,
    fun _ text h => hmac_congr_hmacK0 (hmacK0_sha1 h).symm text⟩

end Sys2Proof.Machine
end

section
/-! The output blocks of PBKDF2 and the derived key (41_hmac_pbkdf2 R117 to R119). -/

namespace Sys2Proof.Machine

/-- From `U_(j+1)` on, `n` iterations XOR the next `n` values of the chain into `t`. -/
theorem pbkdf2Iterate_prfChain (p salt : Bytes) (i n j : Nat) (t : Bytes) :
    pbkdf2Iterate p n (prfChain p salt i j) t =
      (List.range' (j + 1) n).foldl (fun t k => xorBytes t (prfChain p salt i k)) t := by
  induction n generalizing j t with
  | zero => rfl
  | succ n ih => exact ih (j + 1) _

/-- Settles O45: the block function starts at the head of the chain and iterates along it. -/
theorem pbkdf2BlockIsTheXorOfTheChain : Obligations.Pbkdf2BlockIsTheXorOfTheChain := by
  intro p salt c i _
  calc pbkdf2F p salt c i
      = (List.range' 1 (c - 1)).foldl (fun t k => xorBytes t (prfChain p salt i k)) (prfChain p salt i 0) :=
        pbkdf2Iterate_prfChain p salt i (c - 1) 0 _
    _ = (List.range (c - 1)).foldl (fun t j => xorBytes t (prfChain p salt i (j + 1))) (prfChain p salt i 0) := by
        simp only [List.range'_eq_map_range, List.foldl_map, Nat.add_comm 1]

/-- A key of 32 bytes needs two blocks, and 12 bytes of the second. -/
theorem pbkdf2_two_blocks (p salt : Bytes) (c : Nat) :
    pbkdf2 p salt c 32 = pbkdf2F p salt c 1 ++ (pbkdf2F p salt c 2).take 12 := by
  have hblocks : ((List.range 2).flatMap fun k => pbkdf2F p salt c (k + 1)) =
      pbkdf2F p salt c 1 ++ pbkdf2F p salt c 2 := by simp [List.range_succ]
  rw [pbkdf2, hblocks, List.take_append, pbkdf2F_length, List.take_of_length_le (by simp)]

/-- Settles O46. -/
theorem derivedKeyIsTwoBlocksTruncated : Obligations.DerivedKeyIsTwoBlocksTruncated := by
  intro p
  refine ⟨?_, deriveKey_length p⟩
  unfold deriveKey
  exact pbkdf2_two_blocks p saltBytes iterCount

end Sys2Proof.Machine
end

section
/-! The commands `HMAC` and `DERIVE` when they complete (41_hmac_pbkdf2 R114, R121), and what `DERIVE` depends on
(R122). -/

namespace Sys2Proof.Machine

/-- With every check passed, `HMAC` writes the MAC and succeeds, on the state with `prim_fault` asked. -/
theorem exec_hmac_of_checks {s : State} (hr : s.ready = true) (hpw : s.pwlen.toNat ≤ s.params.pwMax)
    (hin : s.inlen.toNat ≤ s.params.bufMax) (hp : primFaultAnswer s = false) :
    exec .hmac s = .next (succeed (writeResult (hmac (pwOperand s) (inOperand s)) (primFaultAsked s))) := by
  rw [exec, execHmac, accept_of_ready hr, if_neg (by simp [pwTooLong_of_le hpw, inTooLong_of_le hin]),
    checkPrim_of_false hp, pwOperand_primFaultAsked, inOperand_primFaultAsked]

/-- Settles O26. -/
theorem hmacWritesTheMac : Obligations.HmacWritesTheMac := by
  intro s hr hwf hpw hin hp
  refine ⟨memWrite s.outBuf 0 (hmac (pwOperand s) (inOperand s)), memWrite_holdsResult hwf _, ?_⟩
  rw [exec_hmac_of_checks hr hpw hin hp, succeed_writeResult_primFaultAsked, hmac_length, BitVec.ofNat_eq_ofNat]

/-- With every check passed, `DERIVE` loads the derived key, writes its copy and succeeds, on the state with
`prim_fault` asked. -/
theorem exec_derive_of_checks {s : State} (hr : s.ready = true) (hpw : s.pwlen.toNat ≤ s.params.pwMax)
    (hp : primFaultAnswer s = false) :
    exec .derive s = .next (succeed (writeResult (deriveKey (pwOperand s))
      (loadKey (deriveKey (pwOperand s)) (primFaultAsked s)))) := by
  rw [exec, execDerive, accept_of_ready hr, if_neg (by simp [pwTooLong_of_le hpw]), checkPrim_of_false hp,
    pwOperand_primFaultAsked]

/-- The end of `DERIVE`: what it writes, and that the rest is as before. -/
theorem succeed_writeResult_loadKey_primFaultAsked (v : Bytes) (s : State) :
    succeed (writeResult v (loadKey v (primFaultAsked s))) = { s with
      key := toReg 32 v, keyv := true, outBuf := memWrite s.outBuf 0 v, outlen := BitVec.ofNat 32 v.length,
      stage := .done, err := .none, primFaults := s.primFaults.tail, primAsked := s.primAsked + 1 } := rfl

/-- Settles O27: the derived key has exactly the 32 bytes of `KEY`, so both copies are whole. -/
theorem deriveLoadsAndCopiesTheKey : Obligations.DeriveLoadsAndCopiesTheKey := by
  intro s hr hwf hpw hp
  have hkey : (toReg 32 (deriveKey (pwOperand s))).toList = deriveKey (pwOperand s) :=
    toReg_toList_of_length (deriveKey_length _)
  refine ⟨memWrite s.outBuf 0 (deriveKey (pwOperand s)), toReg 32 (deriveKey (pwOperand s)), hkey, ?_, ?_⟩
  · rw [hkey]
    exact memWrite_holdsResult hwf _
  · rw [exec_derive_of_checks hr hpw hp, succeed_writeResult_loadKey_primFaultAsked, deriveKey_length,
      BitVec.ofNat_eq_ofNat]

/-- Settles O39: both runs end with the key derived from the same bytes in `KEY`, and with a copy of `KEY` in `OUT`. -/
theorem deriveDependsOnThePasswordAlone : Obligations.DeriveDependsOnThePasswordAlone := by
  intro s s' t t' hr hr' hwf hwf' hpw hpw' hp hp' hsame h h'
  obtain ⟨m, key, hkey, hm, he⟩ := deriveLoadsAndCopiesTheKey s hr hwf hpw hp
  obtain ⟨m', key', hkey', hm', he'⟩ := deriveLoadsAndCopiesTheKey s' hr' hwf' hpw' hp'
  cases he.symm.trans h
  cases he'.symm.trans h'
  obtain rfl : key = key' := Vector.toList_inj.1 (by rw [hkey, hkey', hsame])
  refine ⟨rfl, rfl, rfl, fun a ha => ?_⟩
  have hcopied : a < key.toList.length := by rwa [Vector.length_toList]
  exact ((hm a).trans (if_pos hcopied)).trans ((hm' a).trans (if_pos hcopied)).symm

end Sys2Proof.Machine
end

section
/-! The two helpers of the AES key schedule on the bytes of a word (42_aes R134). -/

namespace Sys2Proof.Machine

/-- The bytes of a word written by its bytes (00_scope R13). -/
theorem be32_append (a0 a1 a2 a3 : Byte) : be32 (a0 ++ a1 ++ a2 ++ a3) = [a0, a1, a2, a3] := by
  have hbyte : ∀ {i : Nat} {b : Byte}, (∀ j < 8, (a0 ++ a1 ++ a2 ++ a3).getLsbD (i + j) = b.getLsbD j) →
      (a0 ++ a1 ++ a2 ++ a3).extractLsb' i 8 = b := fun h =>
    BitVec.eq_of_getLsbD_eq fun j hj => by rw [BitVec.getLsbD_extractLsb', h j hj]; simp [hj]
  simp only [be32, List.cons.injEq, and_true]
  refine ⟨hbyte ?_, hbyte ?_, hbyte ?_, hbyte ?_⟩ <;> intro j hj <;> simp only [BitVec.getLsbD_append] <;> grind

theorem rotWord_append (a0 a1 a2 a3 : Byte) : rotWord (a0 ++ a1 ++ a2 ++ a3) = a1 ++ a2 ++ a3 ++ a0 := by
  rw [rotWord, rotl_eq_rotateLeft (by decide)]
  apply BitVec.eq_of_getLsbD_eq
  intro i hi
  simp only [BitVec.getLsbD_rotateLeft, BitVec.getLsbD_append]
  grind

theorem subWord_append (a0 a1 a2 a3 : Byte) :
    subWord (a0 ++ a1 ++ a2 ++ a3) = sbox a0 ++ sbox a1 ++ sbox a2 ++ sbox a3 := by
  rw [subWord, be32_append]
  rfl

/-- Settles O48. -/
theorem wordHelpersActOnBytes : Obligations.WordHelpersActOnBytes := fun a0 a1 a2 a3 =>
  ⟨rotWord_append a0 a1 a2 a3, subWord_append a0 a1 a2 a3⟩

end Sys2Proof.Machine
end

section
/-! The AES key schedule (42_aes R137). -/

namespace Sys2Proof.Machine

/-- The word that a step of the schedule appends, `RK[k + 8]` (R137). -/
def nextKeyWord (rk : List Word) (k : Nat) : Word := rk.getD k 0 ^^^ keyTemp (k + 8) (rk.getD (k + 7) 0)

/-- The schedule grows from the eight words of the key. -/
theorem keyExpansion_eq_growList (key : Bytes) :
    keyExpansion key = growList nextKeyWord ((pieces 4 key).map beWord) 52 := rfl

/-- A key is eight words. -/
theorem keyWords_length {key : Bytes} (hk : key.length = 32) : ((pieces 4 key).map beWord).length = 8 := by
  rw [List.length_map, pieces_length, hk]

theorem keyExpansion_length {key : Bytes} (hk : key.length = 32) : (keyExpansion key).length = 60 := by
  rw [keyExpansion_eq_growList, growList_length, keyWords_length hk]

/-- The first eight words are the key's. -/
theorem keyExpansion_getD_of_lt {key : Bytes} (hk : key.length = 32) {i : Nat} (hi : i < 8) :
    (keyExpansion key).getD i 0 =
      key.getD (4 * i) 0 ++ key.getD (4 * i + 1) 0 ++ key.getD (4 * i + 2) 0 ++ key.getD (4 * i + 3) 0 := by
  rw [keyExpansion_eq_growList, growList_getD_of_lt _ _ _ _ (by rwa [keyWords_length hk])]
  exact beWord_pieces_getD (by rwa [hk])

/-- `RK[k + 8]` by the words before it, which the later steps leave as they are. -/
theorem keyExpansion_getD_add {key : Bytes} (hk : key.length = 32) {k : Nat} (h52 : k < 52) :
    (keyExpansion key).getD (k + 8) 0 = nextKeyWord (keyExpansion key) k := by
  have hlen := keyWords_length hk
  have hkept : ∀ i < 8, (growList nextKeyWord ((pieces 4 key).map beWord) k).getD (k + i) 0 =
      (keyExpansion key).getD (k + i) 0 := fun i hi => (growList_getD_of_le _ _ _ (by omega) h52.le).symm
  calc (keyExpansion key).getD (k + 8) 0
      = nextKeyWord (growList nextKeyWord ((pieces 4 key).map beWord) k) k := by
        rw [Nat.add_comm, ← hlen]
        exact growList_getD_add _ _ _ h52
    _ = nextKeyWord (keyExpansion key) k := by
        have hfirst : (growList nextKeyWord ((pieces 4 key).map beWord) k).getD k 0 = (keyExpansion key).getD k 0 :=
          hkept 0 (by decide)
        rw [nextKeyWord, hfirst, hkept 7 (by decide), ← nextKeyWord]

/-- Settles O47: the first words are kept while the schedule grows, and the others are what their step appended. -/
theorem keyScheduleRecurrence : Obligations.KeyScheduleRecurrence := by
  intro key hk
  refine ⟨keyExpansion_length hk, fun i hi => keyExpansion_getD_of_lt hk hi, fun i h8 h60 => ?_⟩
  obtain ⟨k, rfl⟩ := Nat.exists_eq_add_of_le' h8
  dsimp only
  rw [keyExpansion_getD_add hk (by omega), nextKeyWord, keyTemp, Nat.add_sub_cancel]
  rfl

end Sys2Proof.Machine
end

section
/-! On the blocks of 16 bytes, which are finitely many, a left inverse is a right inverse. -/

namespace Sys2Proof.Machine

/-- There are finitely many 16-byte strings, so what undoes a function on them is undone by it. -/
theorem eq_of_undone_on_blocks {f g : Bytes → Bytes} (hf : ∀ s, (f s).length = 16)
    (h : ∀ s, s.length = 16 → g (f s) = s) {s : Bytes} (hs : s.length = 16) : f (g s) = s := by
  have hinj : Function.Injective fun v : List.Vector Byte 16 => (⟨f v.1, hf v.1⟩ : List.Vector Byte 16) := by
    intro v w e
    have hfe : f v.1 = f w.1 := congrArg Subtype.val e
    exact Subtype.ext ((h v.1 v.2).symm.trans ((congrArg g hfe).trans (h w.1 w.2)))
  obtain ⟨v, hv⟩ := Finite.surjective_of_injective hinj ⟨s, hs⟩
  obtain rfl : f v.1 = s := congrArg Subtype.val hv
  rw [h v.1 v.2]

end Sys2Proof.Machine
end

section
/-! `MixColumns` and `InvMixColumns` cancel (42_aes R131, R142): multiplication by a fixed byte is linear, and the two
matrices multiply to the identity. -/

namespace Sys2Proof.Machine

/-- One step of `a • b`: bit `k` of `b` adds `xtime^k(a)` (R131). -/
def gmulStep (a b acc : Byte) (k : Nat) : Byte := if b.getLsbD k then acc ^^^ xtimes k a else acc

theorem gmul_eq_foldl (a b : Byte) : gmul a b = (List.range 8).foldl (gmulStep a b) 0 := rfl

/-- A step takes the XOR of two bytes bit by bit, and `xtime^k(a)` twice is 0. -/
theorem gmulStep_xor (a b c x y : Byte) (k : Nat) :
    gmulStep a (b ^^^ c) (x ^^^ y) k = gmulStep a b x k ^^^ gmulStep a c y k := by
  simp only [gmulStep, BitVec.getLsbD_xor]
  cases b.getLsbD k <;> cases c.getLsbD k
  · rfl
  · exact BitVec.xor_assoc x y _
  · show x ^^^ y ^^^ xtimes k a = x ^^^ xtimes k a ^^^ y
    ac_rfl
  · calc x ^^^ y
      _ = x ^^^ y ^^^ (xtimes k a ^^^ xtimes k a) := by rw [BitVec.xor_self, BitVec.xor_zero]
      _ = x ^^^ xtimes k a ^^^ (y ^^^ xtimes k a) := by ac_rfl

theorem foldl_gmulStep_xor (a b c : Byte) (l : List Nat) (x y : Byte) :
    l.foldl (gmulStep a (b ^^^ c)) (x ^^^ y) = l.foldl (gmulStep a b) x ^^^ l.foldl (gmulStep a c) y := by
  induction l generalizing x y with
  | nil => rfl
  | cons k l ih => rw [List.foldl_cons, List.foldl_cons, List.foldl_cons, gmulStep_xor, ih]

/-- Multiplication by a fixed byte is linear. -/
theorem gmul_xor (a b c : Byte) : gmul a (b ^^^ c) = gmul a b ^^^ gmul a c := by
  rw [gmul_eq_foldl, gmul_eq_foldl, gmul_eq_foldl]
  exact foldl_gmulStep_xor a b c (List.range 8) 0 0

/-- The first element of a mixed column (R142); the others are that of the column rotated. -/
def mixRow (a b c d : Byte) : Byte := gmul 2 a ^^^ gmul 3 b ^^^ c ^^^ d

/-- The first element of a column mixed by `InvMixColumns` (R142). -/
def invMixRow (a b c d : Byte) : Byte := gmul 0x0e a ^^^ gmul 0x0b b ^^^ gmul 0x0d c ^^^ gmul 0x09 d

/-- The first row of the product of the two matrices: its first coefficient is 1 and the others are 0. -/
theorem invMix_mix_coefficients : ∀ a : Byte,
    gmul 0x0e (gmul 2 a) ^^^ gmul 0x0b a ^^^ gmul 0x0d a ^^^ gmul 0x09 (gmul 3 a) = a ∧
    gmul 0x0e (gmul 3 a) ^^^ gmul 0x0b (gmul 2 a) ^^^ gmul 0x0d a ^^^ gmul 0x09 a = 0 ∧
    gmul 0x0e a ^^^ gmul 0x0b (gmul 3 a) ^^^ gmul 0x0d (gmul 2 a) ^^^ gmul 0x09 a = 0 ∧
    gmul 0x0e a ^^^ gmul 0x0b a ^^^ gmul 0x0d (gmul 3 a) ^^^ gmul 0x09 (gmul 2 a) = 0 := by decide +kernel

theorem invMixRow_mixRow (a b c d : Byte) :
    invMixRow (mixRow a b c d) (mixRow b c d a) (mixRow c d a b) (mixRow d a b c) = a := by
  obtain ⟨ha, -, -, -⟩ := invMix_mix_coefficients a
  obtain ⟨-, hb, -, -⟩ := invMix_mix_coefficients b
  obtain ⟨-, -, hc, -⟩ := invMix_mix_coefficients c
  obtain ⟨-, -, -, hd⟩ := invMix_mix_coefficients d
  calc invMixRow (mixRow a b c d) (mixRow b c d a) (mixRow c d a b) (mixRow d a b c)
    _ = (gmul 0x0e (gmul 2 a) ^^^ gmul 0x0b a ^^^ gmul 0x0d a ^^^ gmul 0x09 (gmul 3 a)) ^^^
        (gmul 0x0e (gmul 3 b) ^^^ gmul 0x0b (gmul 2 b) ^^^ gmul 0x0d b ^^^ gmul 0x09 b) ^^^
        (gmul 0x0e c ^^^ gmul 0x0b (gmul 3 c) ^^^ gmul 0x0d (gmul 2 c) ^^^ gmul 0x09 c) ^^^
        (gmul 0x0e d ^^^ gmul 0x0b d ^^^ gmul 0x0d (gmul 3 d) ^^^ gmul 0x09 (gmul 2 d)) := by
      simp only [invMixRow, mixRow, gmul_xor]
      ac_rfl
    _ = a := by rw [ha, hb, hc, hd, xor_zero, xor_zero, xor_zero]

/-- Each row of the matrix is the row above it, rotated. -/
theorem mixColumn_eq (a b c d : Byte) :
    mixColumn a b c d = [mixRow a b c d, mixRow b c d a, mixRow c d a b, mixRow d a b c] := by
  simp only [mixColumn, mixRow, List.cons.injEq, and_true, true_and]
  exact ⟨by ac_rfl, by ac_rfl, by ac_rfl⟩

theorem invMixColumn_eq (a b c d : Byte) :
    invMixColumn a b c d = [invMixRow a b c d, invMixRow b c d a, invMixRow c d a b, invMixRow d a b c] := by
  simp only [invMixColumn, invMixRow, List.cons.injEq, and_true, true_and]
  exact ⟨by ac_rfl, by ac_rfl, by ac_rfl⟩

/-- Two functions of a column that cancel on every column cancel on every state. -/
theorem onColumns_onColumns {f g : Byte → Byte → Byte → Byte → Bytes}
    (h : ∀ a b c d, ∃ w x y z, f a b c d = [w, x, y, z] ∧ g w x y z = [a, b, c, d]) {s : Bytes} (hs : s.length = 16) :
    onColumns g (onColumns f s) = s := by
  have hcol : ∀ c, ∃ w x y z, f (stateAt s 0 c) (stateAt s 1 c) (stateAt s 2 c) (stateAt s 3 c) = [w, x, y, z] ∧
      g w x y z = [stateAt s 0 c, stateAt s 1 c, stateAt s 2 c, stateAt s 3 c] := fun c => h _ _ _ _
  obtain ⟨w0, x0, y0, z0, hf0, hg0⟩ := hcol 0
  obtain ⟨w1, x1, y1, z1, hf1, hg1⟩ := hcol 1
  obtain ⟨w2, x2, y2, z2, hf2, hg2⟩ := hcol 2
  obtain ⟨w3, x3, y3, z3, hf3, hg3⟩ := hcol 3
  have hmixed : onColumns f s = [w0, x0, y0, z0, w1, x1, y1, z1, w2, x2, y2, z2, w3, x3, y3, z3] := by
    simp [onColumns, List.range_succ, hf0, hf1, hf2, hf3]
  have hback : onColumns g (onColumns f s) =
      g w0 x0 y0 z0 ++ (g w1 x1 y1 z1 ++ (g w2 x2 y2 z2 ++ (g w3 x3 y3 z3 ++ []))) := by
    rw [hmixed]
    rfl
  rw [hback, hg0, hg1, hg2, hg3]
  exact stateOf_stateAt hs

theorem invMixColumns_mixColumns {s : Bytes} (hs : s.length = 16) : invMixColumns (mixColumns s) = s :=
  onColumns_onColumns (fun a b c d => ⟨_, _, _, _, mixColumn_eq a b c d, by
    rw [invMixColumn_eq, invMixRow_mixRow, invMixRow_mixRow, invMixRow_mixRow, invMixRow_mixRow]⟩) hs

theorem mixColumns_invMixColumns {s : Bytes} (hs : s.length = 16) : mixColumns (invMixColumns s) = s :=
  eq_of_undone_on_blocks mixColumns_length (fun _ => invMixColumns_mixColumns) hs

/-- Settles O49: on columns the matrices cancel in one order, and on the finitely many states so do they in the other. -/
theorem mixColumnsAndItsInverseCancel : Obligations.MixColumnsAndItsInverseCancel := fun _ hs =>
  ⟨invMixColumns_mixColumns hs, mixColumns_invMixColumns hs⟩

end Sys2Proof.Machine
end

section
/-! `Cipher` and `InvCipher` cancel (42_aes R143, R147, R148): every transformation is undone by its inverse, so `InvCipher`
takes the rounds of `Cipher` back one by one. -/

namespace Sys2Proof.Machine

theorem addRoundKey_addRoundKey (rk : List Word) (k : Nat) {s : Bytes} (hs : s.length = 16) :
    addRoundKey rk k (addRoundKey rk k s) = s := xorBytes_xorBytes_cancel (by rw [hs, roundKey_length])

theorem invSubBytes_subBytes (s : Bytes) : invSubBytes (subBytes s) = s := by
  have hid : invSbox ∘ sbox = id := funext invSbox_sbox
  rw [invSubBytes, subBytes, List.map_map, hid, List.map_id]

/-- Two states given by their elements are equal when the elements are. -/
theorem stateOf_congr {f g : Nat → Nat → Byte} (h : ∀ r < 4, ∀ c < 4, f r c = g r c) : stateOf f = stateOf g :=
  List.map_congr_left fun k hk => by
    have hk : k < 16 := List.mem_range.1 hk
    exact h _ (by omega) _ (by omega)

theorem invShiftRows_shiftRows {s : Bytes} (hs : s.length = 16) : invShiftRows (shiftRows s) = s := by
  refine Eq.trans (stateOf_congr fun r hr c hc => ?_) (stateOf_stateAt hs)
  have hcol : ((c + 4 - r) % 4 + r) % 4 = c := by omega
  rw [shiftRows, stateAt_stateOf _ hr (by omega), hcol]

theorem cipherRound_length (rk : List Word) (k : Nat) (s : Bytes) : (cipherRound rk k s).length = 16 :=
  addRoundKey_length rk k (mixColumns_length _)

/-- The first half of a round is undone on every state. -/
theorem invSubBytes_invShiftRows_cancel {s : Bytes} (hs : s.length = 16) :
    invSubBytes (invShiftRows (shiftRows (subBytes s))) = s := by
  rw [invShiftRows_shiftRows ((subBytes_length s).trans hs), invSubBytes_subBytes]

/-- A round of `InvCipher` undoes the second half of a round of `Cipher` and the first half of the next. -/
theorem invCipherRound_cipherRound (rk : List Word) (k : Nat) (s : Bytes) :
    invCipherRound rk k (shiftRows (subBytes (cipherRound rk k s))) = shiftRows (subBytes s) := by
  rw [invCipherRound, invSubBytes_invShiftRows_cancel (cipherRound_length rk k s), cipherRound,
    addRoundKey_addRoundKey rk k (mixColumns_length _), invMixColumns_mixColumns (shiftRows_length _)]

/-- The rounds of `InvCipher` take those of `Cipher` back to the first half of round 1. -/
theorem invCipherRounds_cipherRounds (rk : List Word) (b : Bytes) (n : Nat) :
    invCipherRounds rk n (shiftRows (subBytes (cipherRounds rk b n))) = shiftRows (subBytes (addRoundKey rk 0 b)) := by
  induction n with
  | zero => rfl
  | succ n ih => rw [invCipherRounds, cipherRounds, invCipherRound_cipherRound, ih]

theorem invCipher_cipher (rk : List Word) {b : Bytes} (hb : b.length = 16) : invCipher rk (cipher rk b) = b := by
  rw [invCipher, cipher, addRoundKey_addRoundKey rk 14 (shiftRows_length _), invCipherRounds_cipherRounds,
    invSubBytes_invShiftRows_cancel (addRoundKey_length rk 0 hb), addRoundKey_addRoundKey rk 0 hb]

theorem cipher_invCipher (rk : List Word) {b : Bytes} (hb : b.length = 16) : cipher rk (invCipher rk b) = b :=
  eq_of_undone_on_blocks (cipher_length rk) (fun _ => invCipher_cipher rk) hb

/-- Settles O50: the two cancel under any list of round keys, so under that of a key. -/
theorem cipherAndInvCipherAreInversePermutations : Obligations.CipherAndInvCipherAreInversePermutations :=
  fun _ x _ hx => ⟨cipher_length _ x, invCipher_length _ x, invCipher_cipher _ hx, cipher_invCipher _ hx⟩

end Sys2Proof.Machine
end

section
/-! The commands `LDKEY`, `AESENCB` and `AESDECB` when they complete (42_aes R152 to R154). -/

namespace Sys2Proof.Machine

/-- With both checks passed, `LDKEY` loads the key and succeeds without a result. -/
theorem exec_ldkey_of_checks {s : State} (hr : s.ready = true) (hlen : s.inlen.toNat = 32)
    (hcap : 32 ≤ s.params.bufMax) :
    exec .ldkey s = .next (succeed (noResult (loadKey (memRead s.inBuf 0 32) s))) := by
  have hin : inLength s = 32 := hlen
  rw [exec, execLdkey, accept_of_ready hr, if_neg (by simp [inTooLong_of_le (hlen.trans_le hcap)]),
    if_neg (not_not.2 hin)]

/-- Settles O28: the 32 bytes read are the whole of `KEY`. -/
theorem ldkeyLoadsTheKey : Obligations.LdkeyLoadsTheKey := fun s hr hlen hcap =>
  ⟨toReg 32 (memRead s.inBuf 0 32), toReg_toList_of_length (memRead_length _ _ _), exec_ldkey_of_checks hr hlen hcap⟩

/-- With every check passed, a block command writes its block and succeeds, on the state with `prim_fault` asked. -/
theorem blockCommand_of_checks (f : List Word → Bytes → Bytes) {s : State} (hr : s.ready = true)
    (hlen : s.inlen.toNat = 16) (hk : s.keyv = true) (hp : primFaultAnswer s = false) :
    blockCommand f s =
      succeed (writeResult (f (keyExpansion s.key.toList) (memRead s.inBuf 0 16)) (primFaultAsked s)) := by
  have hin : inLength s = 16 := hlen
  rw [blockCommand, accept_of_ready hr, if_neg (not_not.2 hin), if_neg (by simp [hk]), checkPrim_of_false hp]
  rfl

/-- A block command whose function gives blocks writes one block to `OUT`. -/
theorem blockCommand_writes_one_block {f : List Word → Bytes → Bytes} (hf : ∀ rk b, (f rk b).length = 16) {s : State}
    (hr : s.ready = true) (hwf : s.outBuf.wf = true) (hlen : s.inlen.toNat = 16) (hk : s.keyv = true)
    (hp : primFaultAnswer s = false) :
    ∃ m : Memory, HoldsResult s.outBuf m (f (keyExpansion s.key.toList) (memRead s.inBuf 0 16)) ∧
      blockCommand f s = { s with
        outBuf := m, outlen := 16, stage := .done, err := .none,
        primFaults := s.primFaults.tail, primAsked := s.primAsked + 1 } :=
  ⟨_, memWrite_holdsResult hwf _, by
    rw [blockCommand_of_checks f hr hlen hk hp, succeed_writeResult_primFaultAsked, hf, BitVec.ofNat_eq_ofNat]⟩

/-- Settles O29: the two commands differ in the block function only. -/
theorem blockCommandsWriteOneBlock : Obligations.BlockCommandsWriteOneBlock := by
  intro s hr hwf hlen hk hp
  obtain ⟨m, hm, he⟩ := blockCommand_writes_one_block cipher_length hr hwf hlen hk hp
  obtain ⟨m', hm', he'⟩ := blockCommand_writes_one_block invCipher_length hr hwf hlen hk hp
  exact ⟨⟨m, hm, congrArg _ he⟩, m', hm', congrArg _ he'⟩

end Sys2Proof.Machine
end

section
/-! The padding controller (43_padding_cbc R160 to R162): what `unpad` accepts, and that it undoes `pad`. -/

namespace Sys2Proof.Machine

/-- The last `n` bytes of a string are all `v`, said of the bytes counted from the end, as `unpad` reads them. -/
theorem drop_eq_replicate_iff {x : Bytes} {n : Nat} (hn : n ≤ x.length) (v : Byte) :
    x.drop (x.length - n) = List.replicate n v ↔ ∀ k < n, x.getD (x.length - (k + 1)) 0 = v := by
  have hlen : (x.drop (x.length - n)).length = n := by rw [List.length_drop]; omega
  have hget : ∀ i k, i + k + 1 = n → x.getD (x.length - (k + 1)) 0 = (x.drop (x.length - n)).getD i 0 := by
    intro i k hik
    have hpos : x.length - (k + 1) = x.length - n + i := by omega
    rw [hpos, List.getD_eq_getElem?_getD, List.getD_eq_getElem?_getD, List.getElem?_drop]
  constructor
  · intro h k hk
    rw [hget (n - 1 - k) k (by omega), h, List.getD_replicate _ (by omega)]
  · intro h
    refine List.ext_getElem (by rw [hlen, List.length_replicate]) fun i hi _ => ?_
    rw [List.getElem_replicate, ← List.getD_eq_getElem _ 0 hi, ← hget i (n - 1 - i) (by omega)]
    exact h _ (by omega)

/-- What `unpad` tests and what it returns: the last byte is a count from 1 to 16, the last bytes of that count equal
it, and the result is what stands before them (R161). -/
theorem unpadBytes_eq_some_iff {x r : Bytes} {v : Byte} (hx : 16 ≤ x.length) (hv : x.getD (x.length - 1) 0 = v) :
    unpadBytes x = some r ↔ 1 ≤ v.toNat ∧ v.toNat ≤ 16 ∧
      x.drop (x.length - v.toNat) = List.replicate v.toNat v ∧ x.take (x.length - v.toNat) = r := by
  simp only [unpadBytes, hv]
  split
  · next hcount => exact iff_of_false nofun fun ⟨h1, h16, _⟩ => by omega
  · next hcount =>
    have hpad := drop_eq_replicate_iff (x := x) (n := v.toNat) (by omega) v
    split
    · next hbad =>
      simp only [List.any_eq_true, List.mem_range, bne_iff_ne] at hbad
      obtain ⟨k, hk, hne⟩ := hbad
      exact iff_of_false nofun fun ⟨_, _, h, _⟩ => hne (hpad.1 h k hk)
    · next hgood =>
      simp only [List.any_eq_true, List.mem_range, bne_iff_ne, not_exists, not_and, not_not] at hgood
      have hr := Option.some_inj (a := x.take (x.length - v.toNat)) (b := r)
      exact ⟨fun h => ⟨by omega, by omega, hpad.2 hgood, hr.1 h⟩, fun ⟨_, _, _, h⟩ => hr.2 h⟩

/-- `unpad` returns what stands before `p` bytes of value `p`, `p` = 1 to 16. -/
theorem unpadBytes_append_replicate {r : Bytes} {p : Nat} (h1 : 1 ≤ p) (h16 : p ≤ 16)
    (hx : 16 ≤ r.length + p) : unpadBytes (r ++ List.replicate p (BitVec.ofNat 8 p)) = some r := by
  have hp : (BitVec.ofNat 8 p).toNat = p := Nat.mod_eq_of_lt (by omega)
  have hlen : (r ++ List.replicate p (BitVec.ofNat 8 p)).length - p = r.length := by simp
  have hlast : (r ++ List.replicate p (BitVec.ofNat 8 p)).getD
      ((r ++ List.replicate p (BitVec.ofNat 8 p)).length - 1) 0 = BitVec.ofNat 8 p :=
    (drop_eq_replicate_iff (n := p) (by simp) _).1 (by rw [hlen, List.drop_left]) 0 h1
  rw [unpadBytes_eq_some_iff (by simpa using hx) hlast, hp, hlen, List.drop_left, List.take_left]
  exact ⟨h1, h16, rfl, rfl⟩

/-- A string of at least a block that `unpad` accepts is its result and the padding behind it. -/
theorem eq_append_replicate_of_unpadBytes {x r : Bytes} (hx : 16 ≤ x.length) (h : unpadBytes x = some r) :
    ∃ p, 1 ≤ p ∧ p ≤ 16 ∧ x = r ++ List.replicate p (BitVec.ofNat 8 p) := by
  obtain ⟨h1, h16, hdrop, htake⟩ := (unpadBytes_eq_some_iff hx rfl).1 h
  refine ⟨_, h1, h16, ?_⟩
  rw [BitVec.ofNat_toNat, BitVec.setWidth_eq, ← hdrop, ← htake, List.take_append_drop]

/-- Settles O52: a non-empty string of whole blocks has at least one. -/
theorem unpadAcceptsExactlyWellFormedPadding : Obligations.UnpadAcceptsExactlyWellFormedPadding := by
  intro x r hne hwhole
  have hpos := List.length_pos_of_ne_nil hne
  have hx : 16 ≤ x.length := by omega
  refine ⟨eq_append_replicate_of_unpadBytes hx, ?_⟩
  rintro ⟨p, h1, h16, rfl⟩
  exact unpadBytes_append_replicate h1 h16 (by simpa using hx)

/-- The padding is 1 to 16 bytes (R160). -/
theorem padCount_bounds (n : Nat) : 1 ≤ padCount n ∧ padCount n ≤ 16 := by
  unfold padCount; omega

/-- `unpad` undoes `pad` (R162 (1)). -/
theorem unpadBytes_padBytes (m : Bytes) : unpadBytes (padBytes m) = some m := by
  obtain ⟨h1, h16⟩ := padCount_bounds m.length
  exact unpadBytes_append_replicate h1 h16 (by unfold padCount; omega)

/-- Settles O51: the bounds are those of the padded length. -/
theorem unpadUndoesPad : Obligations.UnpadUndoesPad := by
  intro m
  obtain ⟨-, hlt, hle⟩ := padLength_bounds m.length
  rw [← padBytes_length] at hlt hle
  exact ⟨unpadBytes_padBytes m, padBytes_length m, hlt, hle⟩

end Sys2Proof.Machine
end

section
/-! The commands `PAD` and `UNPAD` when they complete (43_padding_cbc R164, R165). -/

namespace Sys2Proof.Machine

/-- The end of a command with the result `v` that asks no oracle: what it writes, and that the rest is as before
(30_encoding R71). -/
theorem succeed_writeResult (v : Bytes) (s : State) :
    succeed (writeResult v s) = { s with
      outBuf := memWrite s.outBuf 0 v, outlen := BitVec.ofNat 32 v.length, stage := .done, err := .none } := rfl

/-- With the padded length within the capacity, `PAD` writes the padded input and succeeds. -/
theorem exec_pad_of_checks {s : State} (hr : s.ready = true) (hlen : padLength s.inlen.toNat ≤ s.params.bufMax) :
    exec .pad s = .next (succeed (writeResult (padBytes (inOperand s)) s)) := by
  have hin : s.inlen.toNat ≤ s.params.bufMax := (padLength_bounds _).2.1.le.trans hlen
  have hfits : ¬(inTooLong s || decide (padLength (inLength s) > s.params.bufMax)) = true := by
    simpa [inTooLong_of_le hin, inLength] using hlen
  rw [exec, execPad, accept_of_ready hr, if_neg hfits]

/-- Settles O32. -/
theorem padWritesInputAndPadding : Obligations.PadWritesInputAndPadding := by
  intro s hr hwf hlen p
  have hpad : padBytes (inOperand s) =
      memRead s.inBuf 0 s.inlen.toNat ++ List.replicate p (BitVec.ofNat 8 p) := by
    rw [padBytes, inOperand_length]; rfl
  refine ⟨memWrite s.outBuf 0 (padBytes (inOperand s)), hpad ▸ memWrite_holdsResult hwf _, ?_⟩
  rw [exec_pad_of_checks hr hlen, succeed_writeResult, padBytes_length, inOperand_length, padLength]

/-- With the length checks passed, `UNPAD` of an input that `unpad` accepts writes the data and succeeds. -/
theorem exec_unpad_of_checks {s : State} {r : Bytes} (hr : s.ready = true) (hlen : s.inlen.toNat ≤ s.params.bufMax)
    (hpos : s.inlen.toNat ≠ 0) (hwhole : s.inlen.toNat % 16 = 0) (hx : unpadBytes (inOperand s) = some r) :
    exec .unpad s = .next (succeed (writeResult r s)) := by
  have halign : ¬(inLength s = 0 ∨ inLength s % 16 ≠ 0) := fun h => h.elim hpos (absurd hwhole)
  rw [exec, execUnpad, accept_of_ready hr, if_neg (by simp [inTooLong_of_le hlen]), if_neg halign, hx]

/-- Settles O33: the input is not empty, since its padding is not. -/
theorem unpadWritesTheDataBeforeThePadding : Obligations.UnpadWritesTheDataBeforeThePadding := by
  intro s r p hr hwf hlen hwhole h1 h16 hin
  have hsize : s.inlen.toNat = r.length + p := by
    simpa using congrArg List.length hin
  have hx : unpadBytes (inOperand s) = some r :=
    (congrArg unpadBytes hin).trans (unpadBytes_append_replicate h1 h16 (by omega))
  refine ⟨memWrite s.outBuf 0 r, memWrite_holdsResult hwf r, ?_⟩
  rw [exec_unpad_of_checks hr hlen (by omega) hwhole hx, succeed_writeResult]

end Sys2Proof.Machine
end

section
/-! CBC chaining (43_padding_cbc R167 to R170), block by block: decryption undoes encryption, and how far a changed IV
or ciphertext block reaches. -/

namespace Sys2Proof.Machine

/-- What holds of the empty string and of a block in front of whole blocks holds of every string of whole blocks. -/
theorem blocks_induction {P : (s : Bytes) → s.length % 16 = 0 → Prop} (nil : P [] rfl)
    (append : ∀ (b s : Bytes) (_ : b.length = 16) (hs : s.length % 16 = 0) (h : (b ++ s).length % 16 = 0),
      P s hs → P (b ++ s) h)
    (s : Bytes) (hs : s.length % 16 = 0) : P s hs := by
  by_cases h : s = []
  · subst h; exact nil
  · have hpos := List.length_pos_of_ne_nil h
    have hb : (s.take 16).length = 16 := by rw [List.length_take]; omega
    have hrest : (s.drop 16).length % 16 = 0 := by rw [List.length_drop]; omega
    have := append _ _ hb hrest (by rwa [List.take_append_drop]) (blocks_induction nil append _ hrest)
    simpa only [List.take_append_drop] using this
termination_by s.length
decreasing_by rw [List.length_drop]; omega

/-- `CBCENC` of a block and what follows it: the block's ciphertext is the next chaining value (R168). -/
theorem cbcEnc_append (rk : List Word) (iv : Bytes) {b : Bytes} (hb : b.length = 16) (s : Bytes) :
    cbcEnc rk iv (b ++ s) = cipher rk (xorBytes b iv) ++ cbcEnc rk (cipher rk (xorBytes b iv)) s := by
  rw [cbcEnc, pieces_append (by decide) hb, cbcEncFrom, ← cbcEnc]

/-- `CBCDEC` of a block and what follows it: the ciphertext block is the next chaining value (R169). -/
theorem cbcDec_append (rk : List Word) (iv : Bytes) {b : Bytes} (hb : b.length = 16) (s : Bytes) :
    cbcDec rk iv (b ++ s) = xorBytes (invCipher rk b) iv ++ cbcDec rk b s := by
  rw [cbcDec, pieces_append (by decide) hb, cbcDecFrom, ← cbcDec]

theorem cbcEnc_nil (rk : List Word) (iv : Bytes) : cbcEnc rk iv [] = [] := rfl

theorem cbcDec_nil (rk : List Word) (iv : Bytes) : cbcDec rk iv [] = [] := rfl

/-- `CBCENC` keeps the length of whole blocks. -/
theorem cbcEnc_length (rk : List Word) (iv : Bytes) {m : Bytes} (hm : m.length % 16 = 0) :
    (cbcEnc rk iv m).length = m.length := by
  rw [cbcEnc, cbcEncFrom_length, pieces_length]
  omega

/-- `CBCDEC` undoes `CBCENC` under any list of round keys: `InvCipher` gives the block XORed with the chaining value,
which both directions share. -/
theorem cbcDec_cbcEnc (rk : List Word) {iv m : Bytes} (hiv : iv.length = 16) (hm : m.length % 16 = 0) :
    cbcDec rk iv (cbcEnc rk iv m) = m := by
  induction m, hm using blocks_induction generalizing iv with
  | nil => rw [cbcEnc_nil, cbcDec_nil]
  | append b s hb _ _ ih =>
    have hx : (xorBytes b iv).length = 16 := by rw [xorBytes_length, hb, hiv, Nat.min_self]
    rw [cbcEnc_append rk iv hb, cbcDec_append rk iv (cipher_length rk _), invCipher_cipher rk hx,
      xorBytes_xorBytes_cancel (hb.trans hiv.symm).le, ih (cipher_length rk _)]

/-- Settles O53. -/
theorem cbcDecryptionUndoesEncryption : Obligations.CbcDecryptionUndoesEncryption :=
  fun _ iv _ _ hiv hm => ⟨cbcEnc_length _ iv hm, cbcDec_cbcEnc _ hiv hm⟩

/-- `XOR` with `b` and then with the change from `b` to `c` is `XOR` with `c` (00_scope R12). -/
theorem xorBytes_change (a : Bytes) {b c : Bytes} (h : b.length = c.length) :
    xorBytes (xorBytes a b) (xorBytes b c) = xorBytes a c := by
  induction a generalizing b c with
  | nil => rfl
  | cons x a ih =>
    match b, c, h with
    | [], [], _ => rfl
    | y :: b, z :: c, h =>
      have hhead : x ^^^ y ^^^ (y ^^^ z) = x ^^^ z := by
        rw [BitVec.xor_assoc, ← BitVec.xor_assoc y, BitVec.xor_self, BitVec.zero_xor]
      exact congrArg₂ List.cons hhead (ih (Nat.succ.inj h))

/-- Settles O54: the IV is read in the first block only. -/
theorem ivChangeFlipsTheFirstBlockOnly : Obligations.IvChangeFlipsTheFirstBlockOnly := by
  intro rk iv iv' y hiv hiv' hy
  induction y, hy using blocks_induction with
  | nil => exact ⟨rfl, rfl⟩
  | append b s hb _ _ _ =>
    have hlen : ∀ c : Bytes, c.length = 16 → (xorBytes (invCipher rk b) c).length = 16 := fun c hc => by
      rw [xorBytes_length, invCipher_length, hc, Nat.min_self]
    rw [cbcDec_append rk iv hb, cbcDec_append rk iv' hb]
    constructor
    · rw [List.take_left' (hlen iv hiv), List.take_left' (hlen iv' hiv'), xorBytes_change _ (hiv.trans hiv'.symm)]
    · rw [List.drop_left' (hlen iv hiv), List.drop_left' (hlen iv' hiv')]

/-- `CBCDEC` of whole blocks and what follows them: what follows is decrypted from the last 16 bytes before it, `iv`
counted in (R169). -/
theorem cbcDec_append_blocks (rk : List Word) {iv pre : Bytes} (hiv : iv.length = 16) (hpre : pre.length % 16 = 0)
    (s : Bytes) : cbcDec rk iv (pre ++ s) = cbcDec rk iv pre ++ cbcDec rk ((iv ++ pre).drop pre.length) s := by
  induction pre, hpre using blocks_induction generalizing iv with
  | nil => simp [cbcDec_nil]
  | append b pre hb _ _ ih =>
    have hlast : (iv ++ (b ++ pre)).drop (b ++ pre).length = (b ++ pre).drop pre.length := by
      rw [List.length_append, hb, ← hiv, ← List.drop_drop, List.drop_left]
    rw [List.append_assoc, cbcDec_append rk iv hb, cbcDec_append rk iv hb, ih hb, List.append_assoc, hlast]

/-- The blocks before a string are decrypted as if it were not there. -/
theorem cbcDec_take_blocks (rk : List Word) {iv pre : Bytes} (hiv : iv.length = 16) (hpre : pre.length % 16 = 0)
    (s : Bytes) : (cbcDec rk iv (pre ++ s)).take pre.length = cbcDec rk iv pre := by
  rw [cbcDec_append_blocks rk hiv hpre, List.take_left' (by rw [cbcDec_length rk hiv]; omega)]

/-- Behind a ciphertext block, decryption goes on with that block as the IV. -/
theorem cbcDec_drop_blocks (rk : List Word) {iv pre y : Bytes} (hiv : iv.length = 16) (hpre : pre.length % 16 = 0)
    (hy : y.length = 16) (s : Bytes) :
    (cbcDec rk iv (pre ++ y ++ s)).drop (pre.length + 16) = cbcDec rk y s := by
  have hlen : (pre ++ y).length = pre.length + 16 := by rw [List.length_append, hy]
  have hwhole : (pre ++ y).length % 16 = 0 := by omega
  have hlast : (iv ++ (pre ++ y)).drop (pre ++ y).length = y := by
    rw [← List.append_assoc]
    exact List.drop_left' (by simp [hiv, hy, Nat.add_comm])
  rw [cbcDec_append_blocks rk hiv hwhole, hlast, List.drop_left' (by rw [cbcDec_length rk hiv]; omega)]

/-- Settles O55: behind the changed block, the change is one of the IV. -/
theorem blockChangeReachesTheNextBlockOnly : Obligations.BlockChangeReachesTheNextBlockOnly := by
  intro rk iv pre y y' post hiv hpre hy hy' hpost m m'
  have hm : m.drop (pre.length + 16) = cbcDec rk y post := cbcDec_drop_blocks rk hiv hpre hy post
  have hm' : m'.drop (pre.length + 16) = cbcDec rk y' post := cbcDec_drop_blocks rk hiv hpre hy' post
  obtain ⟨hnext, hlater⟩ := ivChangeFlipsTheFirstBlockOnly rk y y' post hy hy' hpost
  refine ⟨?_, ?_, ?_⟩
  · simp only [m, m', List.append_assoc, cbcDec_take_blocks rk hiv hpre]
  · rw [hm, hm', hnext]
  · have hdrop : ∀ x : Bytes, x.drop (pre.length + 32) = (x.drop (pre.length + 16)).drop 16 := fun x => by
      rw [List.drop_drop]
    rw [hdrop, hdrop, hm, hm', hlater]

end Sys2Proof.Machine
end

section
/-! The command `CLEAR` (44_pipeline R190). -/

namespace Sys2Proof.Machine

/-- Outside FATAL, `CLEAR` zeroes the engine. -/
theorem exec_clear_of_not_fatal {s : State} (h : s.stage ≠ .fatal) : exec .clear s = .next (zeroAll s) :=
  congrArg _ (acceptClear_of_not_fatal h zeroAll)

/-- The zeroed engine is the reset state, but for what is not the engine's (10_state R35). -/
theorem zeroAll_eq_resetWith (s : State) : zeroAll s = { State.resetWith s.params with
    pending := s.pending, returned := s.returned, primFaults := s.primFaults, primAsked := s.primAsked,
    rngs := s.rngs, rngAsked := s.rngAsked } := rfl

/-- Settles O34. -/
theorem clearGivesTheResetState : Obligations.ClearGivesTheResetState := fun s =>
  ⟨fun h => by rw [exec_clear_of_not_fatal h, zeroAll_eq_resetWith], fun h => exec_of_fatal h .clear⟩

end Sys2Proof.Machine
end

section
/-! The two contracts of the CipherEngine (44_pipeline R181 to R183, R187): the framing of the blob, what `decrypt_fn`
accepts, and that it undoes `encrypt_fn`. -/

namespace Sys2Proof.Machine

/-- A blob begins with its IV (R182). -/
theorem encryptFn_take_iv (p key : Bytes) {iv : Bytes} (hiv : iv.length = 16) : (encryptFn p key iv).take 16 = iv :=
  List.take_left' hiv

/-- Settles O56. -/
theorem blobLengthLawAndFraming : Obligations.BlobLengthLawAndFraming := fun p key _ _ hiv =>
  ⟨encryptFn_length p key hiv, encryptFn_take_iv p key hiv⟩

/-- `decrypt_fn` accepts the strings of at least two whole blocks whose decrypted tail is well padded, and returns the
tail without its padding (R183). -/
theorem decryptFn_eq_ok_iff {z key r : Bytes} :
    decryptFn z key = .ok r ↔ 32 ≤ z.length ∧ z.length % 16 = 0 ∧
      unpadBytes (cbcDec (keyExpansion key) (z.take 16) (z.drop 16)) = some r := by
  unfold decryptFn
  split
  · next hshort => exact iff_of_false nofun fun ⟨h32, _⟩ => by omega
  · split
    · next halign => exact iff_of_false nofun fun ⟨h32, hwhole, _⟩ => by omega
    · next hshort halign =>
      have h32 : 32 ≤ z.length := by omega
      have hwhole : z.length % 16 = 0 := by omega
      split
      · next hpad => simp [hpad]
      · next r' hpad => simp [hpad, h32, hwhole]

/-- A plaintext is 17 to 32 bytes shorter than its blob: the IV and the padding are gone. -/
theorem decryptFn_length_bounds {z key r : Bytes} (h : decryptFn z key = .ok r) :
    z.length - 32 ≤ r.length ∧ r.length ≤ z.length - 17 := by
  obtain ⟨h32, hwhole, hunpad⟩ := decryptFn_eq_ok_iff.1 h
  have hlen : (cbcDec (keyExpansion key) (z.take 16) (z.drop 16)).length = z.length - 16 := by
    rw [cbcDec_length _ (by rw [List.length_take]; omega), List.length_drop]
    omega
  obtain ⟨p, h1, h16, hx⟩ := eq_append_replicate_of_unpadBytes (by omega) hunpad
  rw [hx, List.length_append, List.length_replicate] at hlen
  omega

/-- `decrypt_fn` finds the IV in front of the blob and the padded plaintext under `CBCENC` behind it. -/
theorem decryptFn_encryptFn (p key : Bytes) {iv : Bytes} (hiv : iv.length = 16) :
    decryptFn (encryptFn p key iv) key = .ok p := by
  have hpad : (padBytes p).length % 16 = 0 := by rw [padBytes_length]; exact (padLength_bounds p.length).1
  have hlen : (encryptFn p key iv).length = 16 + 16 * (p.length / 16 + 1) := encryptFn_length p key hiv
  refine decryptFn_eq_ok_iff.2 ⟨by omega, by omega, ?_⟩
  rw [encryptFn_take_iv p key hiv, encryptFn, List.drop_left' hiv, cbcDec_cbcEnc _ hiv hpad, unpadBytes_padBytes]

/-- Settles O57. -/
theorem decryptFnUndoesEncryptFn : Obligations.DecryptFnUndoesEncryptFn := fun p key _ _ hiv =>
  decryptFn_encryptFn p key hiv

end Sys2Proof.Machine
end

section
/-! The first bytes of a longer read, of a string in a register and of a buffer that holds a result (20_memory R58). -/

namespace Sys2Proof.Machine

/-- The first bytes of what `MemRead` returns are what it returns for fewer bytes. -/
theorem take_memRead {m : Memory} {off n k : Nat} (h : k ≤ n) : (memRead m off n).take k = memRead m off k := by
  rw [memRead, ← List.map_take, List.take_range, Nat.min_eq_left h, memRead]

/-- A register takes the first bytes of a string that fills it. -/
theorem toReg_toList_of_le {n : Nat} {s : Bytes} (h : n ≤ s.length) : (toReg n s).toList = s.take n := by
  have hlen : (s.take n).length = n := List.length_take_of_le h
  rw [← toReg_toList_of_length hlen, toReg_toList, toReg_toList]
  exact List.map_congr_left fun i hi => by
    rw [List.getD_eq_getElem?_getD, List.getD_eq_getElem?_getD, List.getElem?_take_of_lt (List.mem_range.1 hi)]

/-- The result is read back from the buffer that holds it. -/
theorem HoldsResult.memRead_eq {m m' : Memory} {v : Bytes} (h : HoldsResult m m' v) : memRead m' 0 v.length = v := by
  refine List.ext_getElem (memRead_length _ _ _) fun k hk hv => ?_
  rw [← List.getD_eq_getElem _ 0 hk, memRead_getD hv, Nat.zero_add, h k, if_pos hv, List.getD_eq_getElem _ 0 hv]

/-- The result is read from a copy, which need agree on the result's bytes only. -/
theorem HoldsResult.memRead_copy {m m' c : Memory} {v : Bytes} (h : HoldsResult m m' v)
    (hc : ∀ k < v.length, c.read k = m'.read k) : memRead c 0 v.length = v :=
  Eq.trans (memRead_congr fun k hk => by rw [Nat.zero_add]; exact hc k hk) h.memRead_eq

end Sys2Proof.Machine
end

section
/-! The commands `ENCRYPT` and `DECRYPT` when they complete (44_pipeline R184, R186). -/

namespace Sys2Proof.Machine

/-- With every check passed, `ENCRYPT` stores the drawn IV, writes the blob and succeeds, on the state with both oracles
asked. -/
theorem exec_encrypt_of_checks {s : State} {d : Vector Byte 16} (hr : s.ready = true)
    (hlen : encLength s.inlen.toNat ≤ s.params.bufMax) (hk : s.keyv = true) (hp : primFaultAnswer s = false)
    (hd : rngAnswer s = .bytes d) :
    exec .encrypt s = .next (succeed (writeResult (encryptFn (inOperand s) (keyBytes s) d.toList)
      (storeIv d (rngWasAsked (primFaultAsked s))))) := by
  have hin : s.inlen.toNat ≤ s.params.bufMax := by unfold encLength at hlen; omega
  have hfits : ¬(inTooLong s || decide (encLength (inLength s) > s.params.bufMax)) = true := by
    simpa [inTooLong_of_le hin, inLength] using hlen
  rw [exec, execEncrypt, accept_of_ready hr, if_neg hfits, if_neg (by simp [hk]), checkPrim_of_false hp,
    drawIv_of_bytes ((rngAnswer_primFaultAsked s).trans hd)]
  rfl

/-- The end of `ENCRYPT`: what it writes, and that the rest is as before. -/
theorem succeed_writeResult_storeIv_rngWasAsked (v : Bytes) (d : Vector Byte 16) (s : State) :
    succeed (writeResult v (storeIv d (rngWasAsked (primFaultAsked s)))) = { s with
      iv := d, ivv := true, outBuf := memWrite s.outBuf 0 v, outlen := BitVec.ofNat 32 v.length,
      stage := .done, err := .none, primFaults := s.primFaults.tail, primAsked := s.primAsked + 1,
      rngs := s.rngs.tail, rngAsked := s.rngAsked + 1 } := rfl

/-- Settles O30: the first 16 bytes are the IV's by the framing of the blob. -/
theorem encryptWritesTheBlob : Obligations.EncryptWritesTheBlob := by
  intro s d hr hwf hlen hk hp hd
  have hblob : (encryptFn (inOperand s) (keyBytes s) d.toList).length = encLength s.inlen.toNat := by
    rw [encryptFn_length _ _ d.length_toList, inOperand_length]
  have hm := memWrite_holdsResult hwf (encryptFn (inOperand s) (keyBytes s) d.toList)
  refine ⟨_, hm, fun k hk16 => ?_, ?_⟩
  · have hkd : k < d.toList.length := by simpa using hk16
    rw [hm k, if_pos (by rw [hblob, encLength]; omega), encryptFn, List.getD_append _ _ _ _ hkd,
      List.getD_eq_getElem _ 0 hkd, Vector.getElem_toList]
  · rw [exec_encrypt_of_checks hr hlen hk hp hd, succeed_writeResult_storeIv_rngWasAsked, hblob, encLength]

/-- With every check passed, `DECRYPT` of a blob that `decrypt_fn` accepts stores the blob's IV, writes the plaintext and
succeeds, on the state with `prim_fault` asked. -/
theorem exec_decrypt_of_checks {s : State} {r : Bytes} (hr : s.ready = true)
    (hlen : s.inlen.toNat ≤ s.params.bufMax) (hk : s.keyv = true) (hp : primFaultAnswer s = false)
    (hz : decryptFn (inOperand s) (keyBytes s) = .ok r) :
    exec .decrypt s = .next (succeed (writeResult r (storeIv (toReg 16 (inOperand s)) (primFaultAsked s)))) := by
  obtain ⟨h32, hwhole, -⟩ := decryptFn_eq_ok_iff.1 hz
  rw [inOperand_length] at h32 hwhole
  have hshort : ¬inLength s < 16 := by unfold inLength; omega
  have halign : ¬(inLength s = 16 ∨ (inLength s - 16) % 16 ≠ 0) := by unfold inLength; omega
  rw [exec, execDecrypt, accept_of_ready hr, if_neg (by simp [inTooLong_of_le hlen]), if_neg hshort, if_neg halign,
    if_neg (by simp [hk]), checkPrim_of_false hp, inOperand_primFaultAsked, keyBytes_primFaultAsked, hz]

/-- The end of `DECRYPT`: what it writes, and that the rest is as before. -/
theorem succeed_writeResult_storeIv_primFaultAsked (v : Bytes) (d : Vector Byte 16) (s : State) :
    succeed (writeResult v (storeIv d (primFaultAsked s))) = { s with
      iv := d, ivv := true, outBuf := memWrite s.outBuf 0 v, outlen := BitVec.ofNat 32 v.length,
      stage := .done, err := .none, primFaults := s.primFaults.tail, primAsked := s.primAsked + 1 } := rfl

/-- Settles O31: the input that `decrypt_fn` accepts is long enough to fill `IV`. -/
theorem decryptWritesThePlaintext : Obligations.DecryptWritesThePlaintext := by
  intro s r hr hwf hlen hk hp hz
  replace hz : decryptFn (inOperand s) (keyBytes s) = .ok r := hz
  obtain ⟨hlo, hhi⟩ := decryptFn_length_bounds hz
  obtain ⟨h32, -, -⟩ := decryptFn_eq_ok_iff.1 hz
  rw [inOperand_length] at hlo hhi h32
  have hiv : (toReg 16 (inOperand s)).toList = memRead s.inBuf 0 16 := by
    rw [toReg_toList_of_le (by rw [inOperand_length]; omega)]
    exact take_memRead (by unfold inLength; omega)
  refine ⟨_, _, hiv, memWrite_holdsResult hwf r, hlo, hhi, ?_⟩
  rw [exec_decrypt_of_checks hr hlen hk hp hz, succeed_writeResult_storeIv_primFaultAsked]

end Sys2Proof.Machine
end

section
/-! `DECRYPT` undoes `ENCRYPT` (44_pipeline R187). -/

namespace Sys2Proof.Machine

/-- A check that ends outside DONE was passed if the end is DONE. -/
theorem check_passed_of_done {c : Prop} [Decidable c] {a b : State} (ha : a.stage ≠ .done)
    (h : (if c then a else b).stage = .done) : ¬c ∧ b.stage = .done := by
  by_cases hc : c
  · rw [if_pos hc] at h
    exact absurd h ha
  · rw [if_neg hc] at h
    exact ⟨hc, h⟩

/-- A draw that ends in DONE had an answer of 16 bytes. -/
theorem rng_answered_of_done {s : State} {run : Vector Byte 16 → State → State}
    (h : (drawIv s run).stage = .done) : ∃ d, rngAnswer s = .bytes d := by
  cases hd : rngAnswer s with
  | bytes d => exact ⟨d, rfl⟩
  | fail =>
    rw [drawIv_of_fail hd] at h
    cases h

/-- An `ENCRYPT` that succeeds has passed all its checks (R184). -/
theorem encrypt_checks_of_done {s t : State} (hr : s.ready = true) (h : exec .encrypt s = .next t)
    (hdone : t.stage = .done) :
    encLength s.inlen.toNat ≤ s.params.bufMax ∧ s.keyv = true ∧ primFaultAnswer s = false ∧
      ∃ d, rngAnswer s = .bytes d := by
  rw [exec, execEncrypt, accept_of_ready hr] at h
  cases h
  obtain ⟨hlen, hdone⟩ := check_passed_of_done (by simp) hdone
  obtain ⟨hk, hdone⟩ := check_passed_of_done (by simp) hdone
  obtain ⟨hp, hdone⟩ := check_passed_of_done (by simp) hdone
  simp only [Bool.or_eq_true, decide_eq_true_eq, not_or, Nat.not_lt] at hlen
  exact ⟨hlen.2, Bool.eq_true_of_not_eq_false hk, Bool.eq_false_of_not_eq_true hp,
    rng_answered_of_done (s := primFaultAsked s) hdone⟩

/-- `BUF_MAX` is below 2^32 (00_scope R9). -/
theorem bufMax_lt_of_wf {p : Params} (h : p.wf = true) : p.bufMax < 2 ^ 32 := by
  simp only [Params.wf, Bool.and_eq_true, decide_eq_true_eq] at h
  omega

/-- Settles O58: `DECRYPT` reads from `IN` the blob that `ENCRYPT` wrote to `OUT`. -/
theorem decryptCommandUndoesEncryptCommand : Obligations.DecryptCommandUndoesEncryptCommand := by
  intro s t u hparams hr hwf ht hdone hup hur huwf hkey huk hup' hinlen hcopy
  obtain ⟨hlen, hk, hp, d, hd⟩ := encrypt_checks_of_done hr ht hdone
  obtain ⟨m, hm, -, he⟩ := encryptWritesTheBlob s d hr hwf hlen hk hp hd
  cases he.symm.trans ht
  generalize hz : encryptFn (memRead s.inBuf 0 s.inlen.toNat) s.key.toList d.toList = z at hm
  have hzlen : z.length = encLength s.inlen.toNat := by
    rw [← hz, encryptFn_length _ _ d.length_toList, memRead_length]
  have hulen : u.inlen.toNat = z.length := by
    rw [hinlen, hzlen]
    exact Nat.mod_eq_of_lt (hlen.trans_lt (bufMax_lt_of_wf hparams))
  have hblob : memRead u.inBuf 0 u.inlen.toNat = z := by
    rw [hulen]
    exact hm.memRead_copy fun k hk => hcopy k (by rwa [← hinlen, hulen])
  have hplain : decryptFn (memRead u.inBuf 0 u.inlen.toNat) u.key.toList = .ok (memRead s.inBuf 0 s.inlen.toNat) := by
    rw [hblob, hkey, ← hz]
    exact decryptFn_encryptFn _ _ d.length_toList
  obtain ⟨m', iv, hiv, hm', -, -, he'⟩ := decryptWritesThePlaintext u _ hur huwf
    (by rw [hulen, hzlen, hup]; exact hlen) huk hup' hplain
  have hsame : iv = d := Vector.toList_inj.1 <| by
    have h16 : 16 ≤ u.inlen.toNat := by rw [hulen, hzlen, encLength]; omega
    rw [hiv, ← take_memRead h16, hblob, ← hz, encryptFn_take_iv _ _ d.length_toList]
  refine ⟨_, he', rfl, rfl, ?_, hsame, fun a ha => ?_⟩
  · rw [memRead_length, BitVec.ofNat_toNat, BitVec.setWidth_eq]
  · rw [hm' a, memRead_length, if_pos ha, memRead_getD ha, Nat.zero_add]

end Sys2Proof.Machine
end

section
/-! The checks at the head of a command (60_exceptions R208): what a failed first check raises, and how far the passed
checks bring each command that asks an oracle. -/

namespace Sys2Proof.Machine

variable {s : State}

/-! ### The first check -/

/-- An accepted command whose first check fails does what that check raises. -/
theorem next_accept_of_check {c : State → Prop} [DecidablePred c] {a b : State → State} (hr : s.ready = true)
    (h : c s) :
    (Host.Outcome.next (accept s fun s => if c s then a s else b s) : Host.Outcome State Fault Refusal) = .next (a s) :=
  congrArg _ ((accept_of_ready hr _).trans (if_pos h))

/-- An accepted command whose first check passes does what follows that check. -/
theorem next_accept_of_not_check {c : State → Prop} [DecidablePred c] {a b : State → State} (hr : s.ready = true)
    (h : ¬c s) :
    (Host.Outcome.next (accept s fun s => if c s then a s else b s) : Host.Outcome State Fault Refusal) = .next (b s) :=
  congrArg _ ((accept_of_ready hr _).trans (if_neg h))

theorem not_inTooLong_of_le (h : s.inlen.toNat ≤ s.params.bufMax) : ¬inTooLong s = true := by
  simp [inTooLong_of_le h]

/-- The length check of `ENCRYPT` fails exactly when the input or the blob exceeds the capacity (R205). -/
theorem encryptTooLong_iff (s : State) : (inTooLong s || decide (encLength (inLength s) > s.params.bufMax)) = true ↔
    s.inlen.toNat > s.params.bufMax ∨ encLength s.inlen.toNat > s.params.bufMax := by
  simp [inTooLong_iff, inLength]

/-- The length check of `PAD` fails exactly when the input or the padded input exceeds the capacity (R205). -/
theorem padTooLong_iff (s : State) : (inTooLong s || decide (padLength (inLength s) > s.params.bufMax)) = true ↔
    s.inlen.toNat > s.params.bufMax ∨ padLength s.inlen.toNat > s.params.bufMax := by
  simp [inTooLong_iff, inLength]

/-- The length check of `HMAC` fails exactly when the password or the input exceeds its capacity (R205). -/
theorem hmacTooLong_iff (s : State) : (pwTooLong s || inTooLong s) = true ↔
    s.pwlen.toNat > s.params.pwMax ∨ s.inlen.toNat > s.params.bufMax := by
  simp [pwTooLong_iff, inTooLong_iff]

/-! ### The commands with their length checks passed

Each of the seven commands that run SHA-1 or AES then stands at its question to `prim_fault`, four of them behind the
key check; `run` is what the answer false lets it do. -/

/-- The last two checks that the four commands under `KEY` share: the key, then `prim_fault` (R208). -/
def keyedPrimitive (s : State) (run : State → State) : State :=
  if s.keyv = false then raiseFatal .fatalKey s else checkPrim s run

theorem keyedPrimitive_of_no_key (hk : s.keyv = false) (run : State → State) :
    keyedPrimitive s run = raiseFatal .fatalKey s := if_pos hk

theorem keyedPrimitive_of_key (hk : s.keyv = true) (run : State → State) :
    keyedPrimitive s run = checkPrim s run := if_neg (by simp [hk])

theorem exec_derive_of_length (hr : s.ready = true) (hpw : s.pwlen.toNat ≤ s.params.pwMax) :
    ∃ run, exec .derive s = .next (checkPrim s run) :=
  ⟨_, next_accept_of_not_check hr (by simp [pwTooLong_of_le hpw])⟩

theorem exec_hmac_of_lengths (hr : s.ready = true) (hpw : s.pwlen.toNat ≤ s.params.pwMax)
    (hin : s.inlen.toNat ≤ s.params.bufMax) : ∃ run, exec .hmac s = .next (checkPrim s run) :=
  ⟨_, next_accept_of_not_check hr (by simp [pwTooLong_of_le hpw, inTooLong_of_le hin])⟩

theorem exec_sha1_of_length (hr : s.ready = true) (hin : s.inlen.toNat ≤ s.params.bufMax) :
    ∃ run, exec .sha1 s = .next (checkPrim s run) :=
  ⟨_, next_accept_of_not_check hr (not_inTooLong_of_le hin)⟩

theorem blockCommand_of_length (f : List Word → Bytes → Bytes) (hr : s.ready = true) (hlen : s.inlen.toNat = 16) :
    ∃ run, (Host.Outcome.next (blockCommand f s) : Host.Outcome State Fault Refusal) = .next (keyedPrimitive s run) :=
  ⟨_, next_accept_of_not_check hr (not_not.2 hlen)⟩

/-- `ENCRYPT` draws its IV once the key and `prim_fault` allow it (R184). -/
theorem exec_encrypt_of_length (hr : s.ready = true) (hlen : encLength s.inlen.toNat ≤ s.params.bufMax) :
    ∃ run, exec .encrypt s = .next (keyedPrimitive s fun o => drawIv o run) := by
  have hin : s.inlen.toNat ≤ s.params.bufMax := by unfold encLength at hlen; omega
  exact ⟨_, next_accept_of_not_check hr
    (mt (encryptTooLong_iff s).1 (not_or.2 ⟨Nat.not_lt.2 hin, Nat.not_lt.2 hlen⟩))⟩

/-- `DECRYPT` runs `decrypt_fn` once the key and `prim_fault` allow it; malformed padding is its one failure left
(R186). -/
theorem exec_decrypt_of_length (hr : s.ready = true) (hlen : s.inlen.toNat ≤ s.params.bufMax)
    (h32 : 32 ≤ s.inlen.toNat) (hwhole : s.inlen.toNat % 16 = 0) :
    ∃ run, exec .decrypt s = .next (keyedPrimitive s run) ∧
      ∀ o, decryptFn (inOperand o) (keyBytes o) = .error .integrity → run o = raiseError .integrity o := by
  have hshort : ¬inLength s < 16 := by unfold inLength; omega
  have halign : ¬(inLength s = 16 ∨ (inLength s - 16) % 16 ≠ 0) := by unfold inLength; omega
  exact ⟨_, (next_accept_of_not_check hr (not_inTooLong_of_le hlen)).trans
    (congrArg _ ((if_neg hshort).trans (if_neg halign))), fun o h => by simp only [h]⟩

end Sys2Proof.Machine
end

section
/-! The length and format errors (60_exceptions R202, R205): `INLEN` and `PWLEN` alone decide them. -/

namespace Sys2Proof.Machine

/-- Settles O18: the length check is the first of each command. -/
theorem oversizedLengthsRaiseLengthError : Obligations.OversizedLengthsRaiseLengthError := fun s hr =>
  ⟨fun h => next_accept_of_check hr ((pwTooLong_iff s).2 h),
    fun h => next_accept_of_check hr ((hmacTooLong_iff s).2 h),
    fun h =>
      have hin : inTooLong s = true := (inTooLong_iff s).2 h
      ⟨next_accept_of_check hr hin, next_accept_of_check hr hin, next_accept_of_check hr hin,
        next_accept_of_check hr hin⟩,
    fun h => next_accept_of_check hr ((encryptTooLong_iff s).2 h),
    fun h => next_accept_of_check hr ((padTooLong_iff s).2 h),
    fun h => ⟨next_accept_of_check hr h, next_accept_of_check hr h⟩⟩

/-- Settles O19: once the input is known to fit, the format checks come next. -/
theorem malformedLengthsRaiseFormatErrors : Obligations.MalformedLengthsRaiseFormatErrors := by
  intro s hr hlen
  have hin := not_inTooLong_of_le hlen
  refine ⟨fun hshort => ?_, fun h16 halign => ?_, fun halign => ?_⟩
  · exact (next_accept_of_not_check hr hin).trans (congrArg _ (if_pos hshort))
  · exact (next_accept_of_not_check hr hin).trans
      (congrArg _ ((if_neg (Nat.not_lt.2 h16)).trans (if_pos halign)))
  · exact (next_accept_of_not_check hr hin).trans (congrArg _ (if_pos halign))

end Sys2Proof.Machine
end

section
/-! The fatal errors (60_exceptions R206, R207): no valid key, a primitive fault, a failing random source. -/

namespace Sys2Proof.Machine

/-- Settles O20: `LDKEY` checks its length second, and the four commands under `KEY` the key as soon as their lengths
allow. -/
theorem missingOrBadKeyIsFatal : Obligations.MissingOrBadKeyIsFatal := by
  intro s hr failed
  have noKey : ∀ {o}, s.keyv = false → (∃ run, o = .next (keyedPrimitive s run)) → o = failed := by
    rintro _ hk ⟨run, rfl⟩
    exact congrArg _ (keyedPrimitive_of_no_key hk run)
  refine ⟨fun hlen h32 => ?_, fun hk => ⟨fun hlen => ⟨?_, ?_⟩, fun hlen => ?_, fun hlen h32 hwhole => ?_⟩⟩
  · exact (next_accept_of_not_check hr (not_inTooLong_of_le hlen)).trans (congrArg _ (if_pos h32))
  · exact noKey hk (blockCommand_of_length cipher hr hlen)
  · exact noKey hk (blockCommand_of_length invCipher hr hlen)
  · obtain ⟨_, h⟩ := exec_encrypt_of_length hr hlen
    exact noKey hk ⟨_, h⟩
  · obtain ⟨_, h, -⟩ := exec_decrypt_of_length hr hlen h32 hwhole
    exact noKey hk ⟨_, h⟩

/-- Settles O21: with the earlier checks passed, each of the seven commands stands at its question to `prim_fault`. -/
theorem primitiveFaultIsFatal : Obligations.PrimitiveFaultIsFatal := by
  intro s hr hp failed
  have fault : ∀ {o}, (∃ run, o = .next (checkPrim s run)) → o = failed := by
    rintro _ ⟨run, rfl⟩
    exact congrArg _ (checkPrim_of_true hp run)
  have keyedFault : ∀ {o}, s.keyv = true → (∃ run, o = .next (keyedPrimitive s run)) → o = failed := by
    rintro _ hk ⟨run, rfl⟩
    exact fault ⟨run, congrArg _ (keyedPrimitive_of_key hk run)⟩
  refine ⟨fun hpw => ?_, fun hpw hin => ?_, fun hin => ?_,
    fun hk => ⟨fun hlen => ⟨?_, ?_⟩, fun hlen => ?_, fun hlen h32 hwhole => ?_⟩⟩
  · exact fault (exec_derive_of_length hr hpw)
  · exact fault (exec_hmac_of_lengths hr hpw hin)
  · exact fault (exec_sha1_of_length hr hin)
  · exact keyedFault hk (blockCommand_of_length cipher hr hlen)
  · exact keyedFault hk (blockCommand_of_length invCipher hr hlen)
  · obtain ⟨_, h⟩ := exec_encrypt_of_length hr hlen
    exact keyedFault hk ⟨_, h⟩
  · obtain ⟨_, h, -⟩ := exec_decrypt_of_length hr hlen h32 hwhole
    exact keyedFault hk ⟨_, h⟩

/-- Settles O22: the draw follows the question to `prim_fault`. -/
theorem failingRandomSourceIsFatal : Obligations.FailingRandomSourceIsFatal := by
  intro s hr hlen hk hp hd
  obtain ⟨run, h⟩ := exec_encrypt_of_length hr hlen
  rw [h, keyedPrimitive_of_key hk, checkPrim_of_false hp, drawIv_of_fail ((rngAnswer_primFaultAsked s).trans hd)]
  rfl

end Sys2Proof.Machine
end

section
/-! Malformed padding (60_exceptions R203, 43_padding_cbc R161) fails `UNPAD` and `DECRYPT`. -/

namespace Sys2Proof.Machine

/-- `unpad` rejects a string whose last byte is no pad length, or whose last bytes of that number differ from it. -/
theorem unpadBytes_eq_none_of_malformed {x : Bytes} {v : Byte} (hx : 16 ≤ x.length) (hv : x.getD (x.length - 1) 0 = v)
    (hbad : v.toNat = 0 ∨ 16 < v.toNat ∨ ∃ k < v.toNat, x.getD (x.length - (k + 1)) 0 ≠ v) : unpadBytes x = none := by
  refine Option.eq_none_iff_forall_ne_some.2 fun r hr => ?_
  obtain ⟨h1, h16, hdrop, -⟩ := (unpadBytes_eq_some_iff hx hv).1 hr
  rcases hbad with h0 | hbig | ⟨k, hk, hne⟩
  · omega
  · omega
  · exact hne ((drop_eq_replicate_iff (by omega) v).1 hdrop k hk)

/-- With the length checks passed, `UNPAD` of an input that `unpad` rejects raises `E_INTEGRITY`. -/
theorem exec_unpad_of_malformed {s : State} (hr : s.ready = true) (hlen : s.inlen.toNat ≤ s.params.bufMax)
    (hpos : s.inlen.toNat ≠ 0) (hwhole : s.inlen.toNat % 16 = 0) (hx : unpadBytes (inOperand s) = none) :
    exec .unpad s = .next (raiseError .integrity s) := by
  have halign : ¬(inLength s = 0 ∨ inLength s % 16 ≠ 0) := fun h => h.elim hpos (absurd hwhole)
  rw [exec, execUnpad, accept_of_ready hr, if_neg (not_inTooLong_of_le hlen), if_neg halign, hx]

/-- Settles O23: the bytes of `IN` are those that `unpad` reads, counted from the end. -/
theorem malformedPaddingFailsUnpad : Obligations.MalformedPaddingFailsUnpad := by
  intro s hr hlen hpos hwhole p hbad
  have hget : ∀ k, 1 ≤ k → (inOperand s).getD ((inOperand s).length - k) 0 = s.inBuf.read (s.inlen.toNat - k) := by
    intro k hk
    rw [inOperand_length, inOperand, memRead_getD (by unfold inLength; omega), Nat.zero_add]
  refine exec_unpad_of_malformed hr hlen hpos.ne' hwhole
    (unpadBytes_eq_none_of_malformed (by rw [inOperand_length]; omega) (hget 1 le_rfl) ?_)
  refine hbad.imp_right (Or.imp_right ?_)
  rintro ⟨k, hk1, hkp, hne⟩
  refine ⟨k - 1, by omega, ?_⟩
  rw [Nat.sub_add_cancel hk1, hget k hk1]
  exact fun h => hne (congrArg BitVec.toNat h)

/-- `decrypt_fn` fails with `integrity` on a string of at least two whole blocks whose decrypted tail is not well padded
(R183). -/
theorem decryptFn_eq_integrity {z key : Bytes} (h32 : 32 ≤ z.length) (hwhole : z.length % 16 = 0)
    (hpad : unpadBytes (cbcDec (keyExpansion key) (z.take 16) (z.drop 16)) = none) :
    decryptFn z key = .error .integrity := by
  have halign : ¬(z.length - 16 = 0 ∨ (z.length - 16) % 16 ≠ 0) := by omega
  rw [decryptFn, if_neg (by omega), if_neg halign, hpad]

/-- A read without its first bytes is the read that begins behind them (20_memory R58). -/
theorem drop_memRead (m : Memory) (off n k : Nat) : (memRead m off n).drop k = memRead m (off + k) (n - k) := by
  refine List.ext_getElem (by simp) fun i _ _ => ?_
  simp [memRead, Nat.add_assoc]

/-- Settles O24: the input is the blob's IV and payload, and `decrypt_fn` is the last check. -/
theorem malformedPaddingFailsDecrypt : Obligations.MalformedPaddingFailsDecrypt := by
  intro s hr hlen h32 hwhole hk hp hpad
  obtain ⟨run, h, hrun⟩ := exec_decrypt_of_length hr hlen h32 hwhole
  have hiv : (inOperand s).take 16 = memRead s.inBuf 0 16 := take_memRead (by unfold inLength; omega)
  have hpayload : (inOperand s).drop 16 = memRead s.inBuf 16 (s.inlen.toNat - 16) := drop_memRead _ _ _ _
  have hz : decryptFn (inOperand s) (keyBytes s) = .error .integrity :=
    decryptFn_eq_integrity (by rwa [inOperand_length]) (by rwa [inOperand_length]) (by rw [hiv, hpayload]; exact hpad)
  rw [h, keyedPrimitive_of_key hk, checkPrim_of_false hp, hrun (primFaultAsked s) hz]
  rfl

end Sys2Proof.Machine
end

section
/-! The error entry as the only effect of a failed command (60_exceptions R210). -/

namespace Sys2Proof.Machine

/-- A command that ends in ERROR or FATAL ends in an error entry of that class: every commit ends in DONE. -/
theorem Ended.error_entry {i : Instr} {o t : State} (h : Ended i o t) (hf : t.stage = .error ∨ t.stage = .fatal) :
    (∃ c, c.cls = some .error ∧ t = raiseError c o) ∨ (∃ c, c.cls = some .fatal ∧ t = raiseFatal c o) := by
  rcases h with he | he | ⟨_, rfl⟩ | ⟨-, _, rfl⟩ | ⟨-, _, rfl⟩ | ⟨-, _, _, rfl⟩
  · exact .inl he
  · exact .inr he
  all_goals rcases hf with hf | hf <;> cases hf

/-- Settles O17: the command was not ignored and is not `CLEAR`, so it ended in an error entry, and its questions to the
oracles change nothing of the engine. -/
theorem failedCommandDoesItsErrorEntryOnly : Obligations.FailedCommandDoesItsErrorEntryOnly := by
  intro s t i hs h hf
  rcases exec_cases h with ⟨-, hr, -⟩ | ⟨-, -, rfl⟩ | ⟨-, -, o, ho, he⟩
  · rw [(State.ready_iff s).2 hs] at hr
    cases hr
  · rcases hf with hf | hf <;> cases hf
  · obtain ⟨_, _, _, _, rfl⟩ := ho.eq_with_oracles
    rcases he.error_entry hf with ⟨c, hc, rfl⟩ | ⟨c, hc, rfl⟩
    · exact ⟨rfl, hc, rfl, rfl, rfl, rfl, rfl, rfl, rfl, fun _ => ⟨rfl, rfl⟩, nofun⟩
    · exact ⟨rfl, hc, rfl, rfl, rfl, rfl, rfl, rfl, rfl, nofun, fun _ => ⟨rfl, rfl⟩⟩

end Sys2Proof.Machine
end

section
/-! Words that are no command (30_encoding R74, 60_exceptions R204), and the idle engine (R215). -/

namespace Sys2Proof.Machine

theorem runCommandWord_of_no_command {w : Word} (h : ∀ i, w ≠ encode i) (s : State) :
    runCommandWord w s = .next (illegalCommand s) := by
  cases hd : decode w with
  | ok i => exact absurd (decode_eq_ok_iff.1 hd) (h i)
  | error e => rw [runCommandWord, hd]

/-- Settles O5. -/
theorem idleEngineKeepsAllState : Obligations.IdleEngineKeepsAllState := fun _ => step_nil

/-- Settles O6: the gate on `STATE` tells the two clauses apart. -/
theorem illegalWordRaisesIllegalCmdOrIsIgnored : Obligations.IllegalWordRaisesIllegalCmdOrIsIgnored := by
  intro s w rest hw hp
  have hstep : step s = .next (illegalCommand { s with pending := rest }) :=
    (step_command hp).trans (runCommandWord_of_no_command hw _)
  refine ⟨fun hs => hstep.trans (congrArg _ ?_), fun hs => hstep.trans (congrArg _ ?_)⟩
  · exact illegalCommand_of_ready ((State.ready_iff { s with pending := rest }).2 hs)
  · exact illegalCommand_of_not_ready ((State.not_ready_iff { s with pending := rest }).2 hs)

end Sys2Proof.Machine
end

section
/-! ERROR is left by `CLEAR` and the reset event only (60_exceptions R211, 10_state R28). -/

namespace Sys2Proof.Machine

/-- ERROR ignores every word written to `CMD` but that of `CLEAR`. -/
theorem runCommandWord_of_error {s : State} (he : s.stage = .error) {w : Word} (hw : w ≠ encode .clear) :
    runCommandWord w s = .next s := by
  have hr : s.ready = false := (State.not_ready_iff s).2 (.inl he)
  cases hd : decode w with
  | ok i =>
    have hi : i ≠ .clear := by
      rintro rfl
      exact hw (decode_eq_ok_iff.1 hd)
    rw [runCommandWord_of_decode_ok hd, exec_of_not_ready hr hi]
  | error e => rw [runCommandWord, hd, illegalCommand_of_not_ready hr]

/-- Serving a transaction that is no reset and whose command word, if it is one, is ignored changes nothing of the
commands' side of the engine, and none of the waiting transactions. -/
theorem serve_of_ignored {x : Txn} {s t : State} (hreset : x ≠ .reset)
    (hcmd : ∀ w, x = Script.cmdw w → runCommandWord w s = .next s) (h : serve x s = .next t) :
    EngineKept s t ∧ t.pending = s.pending := by
  rcases serve_cases h with ⟨w, hx, h⟩ | ⟨w, -, rfl⟩ | ⟨w, -, rfl⟩ | ⟨off, b, -, -, rfl⟩ | ⟨off, b, -, -, rfl⟩ |
    ⟨_, _, _, r, -, -, rfl⟩ | ⟨hx, -⟩
  · cases (hcmd w hx).symm.trans h
    exact ⟨.refl s, rfl⟩
  · exact ⟨{ EngineKept.refl s with }, rfl⟩
  · exact ⟨{ EngineKept.refl s with }, rfl⟩
  · exact ⟨{ EngineKept.refl s with }, rfl⟩
  · exact ⟨{ EngineKept.refl s with }, rfl⟩
  · exact ⟨{ EngineKept.refl s with }, rfl⟩
  · exact absurd hx hreset

/-- What a run without `CLEAR` and without reset keeps from the ERROR state `s₀` on. -/
structure ErrorSince (s₀ s : State) : Prop where
  kept : EngineKept s₀ s
  no_reset : Txn.reset ∉ s.pending
  no_clear : Script.cmd .clear ∉ s.pending

/-- A step from an ERROR state with neither `CLEAR` nor reset waiting keeps the commands' side, and brings neither. -/
theorem step_errorSince {s₀ s t : State} (he : s₀.stage = .error) (hs : ErrorSince s₀ s) (h : step s = .next t) :
    ErrorSince s₀ t := by
  obtain ⟨hk, hreset, hclear⟩ := hs
  cases hp : s.pending with
  | nil =>
    rw [step_nil hp] at h
    cases h
    exact ⟨hk, hreset, hclear⟩
  | cons x rest =>
    rw [step_cons hp] at h
    rw [hp, List.mem_cons, not_or] at hreset hclear
    obtain ⟨hx, hreset'⟩ := hreset
    obtain ⟨hxc, hclear'⟩ := hclear
    have hcmd : ∀ w, x = Script.cmdw w →
        runCommandWord w { s with pending := rest } = .next { s with pending := rest } := by
      rintro w rfl
      exact runCommandWord_of_error (s := { s with pending := rest }) (hk.stage.trans he)
        fun hw => hxc (congrArg Script.cmdw hw.symm)
    obtain ⟨hk', hp'⟩ := serve_of_ignored (Ne.symm hx) hcmd h
    exact ⟨hk.trans { hk' with }, hp' ▸ hreset', hp' ▸ hclear'⟩

/-- Settles O16, by induction on the steps: each keeps the commands' side of the engine and brings neither `CLEAR` nor
reset. -/
theorem errorKeepsTheFirstErrorUntilClearOrReset : Obligations.ErrorKeepsTheFirstErrorUntilClearOrReset := by
  intro n s t he hreset hclear h
  obtain ⟨hk, -, -⟩ : ErrorSince s t :=
    core_run_keeps (P := ErrorSince s) (fun _ _ => step_errorSince he) n ⟨.refl s, hreset, hclear⟩ h
  exact ⟨hk.stage.trans he, hk.err, hk.outlen, hk.key, hk.iv, hk.outBuf, hk.keyv, hk.ivv⟩

end Sys2Proof.Machine
end

section
/-! `KEY`, `PW` and `IN` have no read path (60_exceptions R214, 20_memory R50). -/

namespace Sys2Proof.Machine

/-- The state with other contents of the three elements the host cannot read. -/
def withUnreadable (key : Vector Byte 32) (pw inp : Memory) (s : State) : State :=
  { s with key := key, pwBuf := pw, inBuf := inp }

/-- No register and no readable byte is one of the three elements. -/
theorem hostRead_withUnreadable (space : Space) (off : Nat) (w : Width) (key : Vector Byte 32) (pw inp : Memory)
    (s : State) : hostRead space off w (withUnreadable key pw inp s) = hostRead space off w s := by
  cases space <;> cases w <;> rfl

/-- Settles O38: both states answer the read with the same value or refuse it with the same name. -/
theorem keyAndPasswordHaveNoReadPath : Obligations.KeyAndPasswordHaveNoReadPath := by
  intro s space off w rest key pw inp hp
  have hsame := hostRead_withUnreadable space off w key pw inp { s with pending := rest }
  have hstep : step { s with key := key, pwBuf := pw, inBuf := inp } =
      serve (.rd space off w) (withUnreadable key pw inp { s with pending := rest }) := step_cons hp
  rw [hstep, step_cons hp]
  cases hr : hostRead space off w { s with pending := rest } with
  | ok r =>
    rw [serve_read hr, serve_read (hsame.trans hr)]
    rfl
  | error e => simp only [serve, hr, hsame.trans hr]

end Sys2Proof.Machine
end

section
/-! The reset event (70_reset_and_hazards R230). -/

namespace Sys2Proof.Machine

/-- Serving the reset event zeroes the engine, whatever `STATE` it is in. -/
theorem serve_reset (s : State) : serve .reset s = .next (zeroAll s) := rfl

/-- Settles O12. -/
theorem resetEventGivesTheResetState : Obligations.ResetEventGivesTheResetState := fun s rest hp => by
  rw [step_cons hp, serve_reset, zeroAll_eq_resetWith]

end Sys2Proof.Machine
end
